-- ==== Sys2Proof/Word.lean ====
section
/-! DEFINITION. The two word types of the block: bytes of frames and buffers, and 32-bit host words (00_scope.md R19, R22). -/

namespace Sys2Proof

/-- A byte of a frame or a buffer (10_state.md R40). -/
abbrev Byte := BitVec 8

/-- A host word: every register is accessed as one 32-bit word (10_state.md R30). -/
abbrev Word := BitVec 32

end Sys2Proof
end

