-- ==== Sys2Proof/Syntax.lean ====
section
/-! DEFINITION. The fourteen operations of spec/opcode_table.json, one constructor each, with the operands that 30_encoding.md R94
says the operation reads, in the order of the assembler syntax of R99. -/

namespace Sys2Proof

/-- The four timeout classes of field TC (30_encoding.md R95). -/
inductive TimeoutClass where
  /-- NOTX, NoTransmission (TC = 0). -/
  | notx
  /-- TX, Transmission (TC = 1). -/
  | tx
  /-- TXRX, TransmissionWithReceive (TC = 2). -/
  | txrx
  /-- INIT (TC = 3). -/
  | init
deriving DecidableEq, Repr

/-- An operation (30_encoding.md R93). Lengths, capacities and milliseconds are counts and so natural numbers; CMD is a byte that
is copied into a frame. `Instr.wellFormed` says that each count fits its field. -/
inductive Instr where
  /-- `PACK cmd, n` (40_frame_codec.md R120). -/
  | pack (cmd : Byte) (n : Nat)
  /-- `PARSE cap` (40_frame_codec.md R125). -/
  | parse (cap : Nat)
  /-- `SEND n` (41_transport.md R145). -/
  | send (n : Nat)
  /-- `RECV cap, tc` (41_transport.md R150). -/
  | recv (cap : Nat) (tc : TimeoutClass)
  /-- `WAITRDY tc` (41_transport.md R160). -/
  | waitrdy (tc : TimeoutClass)
  /-- `ISRDY` (41_transport.md R170). -/
  | isrdy
  /-- `DELAY ms` (41_transport.md R175). -/
  | delay (ms : Nat)
  /-- `XACT cmd, n, tc, apl`, and `XACT.NA cmd, n` when `na` is true (42_command_engine.md R180). -/
  | xact (cmd : Byte) (n : Nat) (tc : TimeoutClass) (na : Bool) (apl : Nat)
  /-- `SENDNB cmd, n` (42_command_engine.md R188). -/
  | sendnb (cmd : Byte) (n : Nat)
  /-- `READACK cap, tc` (42_command_engine.md R190). -/
  | readack (cap : Nat) (tc : TimeoutClass)
  /-- `HZ2REG` (43_frequency.md R200). -/
  | hz2reg
  /-- `REG2HZ` (43_frequency.md R203). -/
  | reg2hz
  /-- `STORE` (43_frequency.md R215). -/
  | store
  /-- `RESTORE` (43_frequency.md R218). -/
  | restore
deriving DecidableEq, Repr

end Sys2Proof
end

