-- ==== Sys2Proof/WellFormed.lean ====
section
/-! DEFINITION. When an operation's operands fit the fields of its operation word (30_encoding.md R90). The legal ranges of R94 are
NOT part of this: an operand that fits its field but is out of range is an operation that raises Fatal when launched (R98). -/

namespace Sys2Proof

/-- The 4-bit field N (R90). -/
def fitsN (n : Nat) : Bool := decide (n < 16)
/-- The 5-bit fields APL and CAP (R90). -/
def fits5 (n : Nat) : Bool := decide (n < 32)
/-- The 16-bit field MS (R90). -/
def fitsMs (n : Nat) : Bool := decide (n < 65536)

/-- Every operand fits its field (30_encoding.md R90). -/
def Instr.wellFormed : Instr → Bool
  | .pack _ n => fitsN n
  | .parse cap => fits5 cap
  | .send n => fitsN n
  | .recv cap _ => fits5 cap
  | .waitrdy _ => true
  | .isrdy => true
  | .delay ms => fitsMs ms
  | .xact _ n _ _ apl => fitsN n && fits5 apl
  | .sendnb _ n => fitsN n
  | .readack cap _ => fits5 cap
  | .hz2reg => true
  | .reg2hz => true
  | .store => true
  | .restore => true

end Sys2Proof
end

