-- ==== Sys2Proof/Decode.lean ====
section
/-! DEFINITION. Decoding and encoding of the 32-bit operation word (30_encoding.md R90 to R98). Decoding is total: a word is an
operation or is rejected by name. -/

namespace Sys2Proof

/-- Why a word is no operation (30_encoding.md R96); both raise Fatal(ILLEGAL_OP). -/
inductive DecodeError where
  /-- Bits [31:29] are not 0. -/
  | reservedBits
  /-- OP is 0x0 or 0xF. -/
  | illegalOp
deriving DecidableEq, Repr

/-- OP, bits 3:0 (R90). -/
def fieldOp (w : Word) : BitVec 4 := w.extractLsb' 0 4
/-- N, bits 7:4 (R90). -/
def fieldN (w : Word) : BitVec 4 := w.extractLsb' 4 4
/-- CMD, bits 15:8 (R90). -/
def fieldCmd (w : Word) : BitVec 8 := w.extractLsb' 8 8
/-- TC, bits 17:16 (R90). -/
def fieldTc (w : Word) : BitVec 2 := w.extractLsb' 16 2
/-- NA, bit 18 (R90). -/
def fieldNa (w : Word) : Bool := w.getLsbD 18
/-- APL, bits 23:19 (R90). -/
def fieldApl (w : Word) : BitVec 5 := w.extractLsb' 19 5
/-- CAP, bits 28:24 (R90). -/
def fieldCap (w : Word) : BitVec 5 := w.extractLsb' 24 5
/-- RSV, bits 31:29 (R90). -/
def fieldRsv (w : Word) : BitVec 3 := w.extractLsb' 29 3
/-- MS of format FD, bits 23:8 (R90). -/
def fieldMs (w : Word) : BitVec 16 := w.extractLsb' 8 16

/-- The timeout class a TC field names (R95). -/
def tcOfField (b : BitVec 2) : TimeoutClass :=
  if b = 0#2 then .notx else if b = 1#2 then .tx else if b = 2#2 then .txrx else .init

/-- The TC field of a timeout class (R95). -/
def fieldOfTc : TimeoutClass → BitVec 2
  | .notx => 0#2
  | .tx => 1#2
  | .txrx => 2#2
  | .init => 3#2

/-- The operation that a word with clear reserved bits holds (R93), its fields taken as R90 and R91 say. -/
def decodeOp (w : Word) : Except DecodeError Instr :=
  match (fieldOp w).toNat with
  | 1 => .ok (.pack (fieldCmd w) (fieldN w).toNat)
  | 2 => .ok (.parse (fieldCap w).toNat)
  | 3 => .ok (.send (fieldN w).toNat)
  | 4 => .ok (.recv (fieldCap w).toNat (tcOfField (fieldTc w)))
  | 5 => .ok (.waitrdy (tcOfField (fieldTc w)))
  | 6 => .ok .isrdy
  | 7 => .ok (.delay (fieldMs w).toNat)
  | 8 => .ok (.xact (fieldCmd w) (fieldN w).toNat (tcOfField (fieldTc w)) (fieldNa w) (fieldApl w).toNat)
  | 9 => .ok (.sendnb (fieldCmd w) (fieldN w).toNat)
  | 10 => .ok (.readack (fieldCap w).toNat (tcOfField (fieldTc w)))
  | 11 => .ok .hz2reg
  | 12 => .ok .reg2hz
  | 13 => .ok .store
  | 14 => .ok .restore
  | _ => .error .illegalOp

/-- Decoding is total (R98): Illegal if bits [31:29] are not 0 or OP is 0x0 or 0xF, else the operation OP names. -/
def decode (w : Word) : Except DecodeError Instr :=
  if fieldRsv w ≠ 0#3 then .error .reservedBits else decodeOp w

/-- A word of format FO, its fields from most to least significant (R90); RSV is 0. -/
def assembleFO (cap apl : BitVec 5) (na : Bool) (tc : BitVec 2) (cmd : BitVec 8) (n op : BitVec 4) : Word :=
  0#3 ++ cap ++ apl ++ BitVec.ofBool na ++ tc ++ cmd ++ n ++ op

/-- A word of format FD (R90); the ignored bits and RSV are 0. -/
def assembleFD (ms : BitVec 16) (op : BitVec 4) : Word :=
  0#3 ++ 0#5 ++ ms ++ 0#4 ++ op

/-- The operation word of an operation; every ignored field is written as 0 (R99). For an operation that is not well formed, for which the
spec gives no word, each operand goes modulo the size of its field (DESIGN CHOICE, log 19, unsafe). -/
def encode : Instr → Word
  | .pack cmd n => assembleFO 0#5 0#5 false 0#2 cmd (BitVec.ofNat 4 n) 0x1#4
  | .parse cap => assembleFO (BitVec.ofNat 5 cap) 0#5 false 0#2 0#8 0#4 0x2#4
  | .send n => assembleFO 0#5 0#5 false 0#2 0#8 (BitVec.ofNat 4 n) 0x3#4
  | .recv cap tc => assembleFO (BitVec.ofNat 5 cap) 0#5 false (fieldOfTc tc) 0#8 0#4 0x4#4
  | .waitrdy tc => assembleFO 0#5 0#5 false (fieldOfTc tc) 0#8 0#4 0x5#4
  | .isrdy => assembleFO 0#5 0#5 false 0#2 0#8 0#4 0x6#4
  | .delay ms => assembleFD (BitVec.ofNat 16 ms) 0x7#4
  | .xact cmd n tc na apl => assembleFO 0#5 (BitVec.ofNat 5 apl) na (fieldOfTc tc) cmd (BitVec.ofNat 4 n) 0x8#4
  | .sendnb cmd n => assembleFO 0#5 0#5 false 0#2 cmd (BitVec.ofNat 4 n) 0x9#4
  | .readack cap tc => assembleFO (BitVec.ofNat 5 cap) 0#5 false (fieldOfTc tc) 0#8 0#4 0xA#4
  | .hz2reg => assembleFO 0#5 0#5 false 0#2 0#8 0#4 0xB#4
  | .reg2hz => assembleFO 0#5 0#5 false 0#2 0#8 0#4 0xC#4
  | .store => assembleFO 0#5 0#5 false 0#2 0#8 0#4 0xD#4
  | .restore => assembleFO 0#5 0#5 false 0#2 0#8 0#4 0xE#4

/-- The instruction the decoder reads from the `nbits` low bits of `w`. The hardware holds an operation word in one 32-bit register
(R97), so the word is handed to the decoder as it stands. -/
def decodeTableWord (nbits w : Nat) : Option Instr :=
  match decode (BitVec.ofNat 32 (w % 2 ^ nbits)) with
  | .ok i => some i
  | .error _ => none

end Sys2Proof
end

