-- ==== Sys2Proof/Config.lean ====
section
/-! DEFINITION. What is fixed for a block: the constants of 00_scope.md R9 to R12, the parameters of R11 and R13 to R16, and
the free values (opaque: nothing about them can be proved). -/

namespace Sys2Proof

namespace Config

/-- IFRAME_HDR, header bytes of an Information frame (R9). -/
abbrev iframeHdr : Nat := 2
/-- IFRAME_PAY_MAX, payload bytes of the longest Information frame (R9). -/
abbrev iframePayMax : Nat := 12
/-- ACK_HDR, header bytes of an Acknowledgement frame (R9). -/
abbrev ackHdr : Nat := 3
/-- ACK_PAY_MAX, payload bytes of the longest Acknowledgement frame (R9). -/
abbrev ackPayMax : Nat := 23
/-- The longest Acknowledgement frame, which is the whole receive buffer (R9, R10). -/
abbrev ackFrameMax : Nat := 26
/-- XO_HZ, the crystal reference (R11). -/
abbrev xoHz : Nat := 27600000
/-- F_MIN (R11). -/
abbrev fMin : Nat := 775000000
/-- F_MAX (R11). -/
abbrev fMax : Nat := 1100000000
/-- FRAC_BITS (R11). -/
abbrev fracBits : Nat := 19
/-- DUMMY_BYTE (R12). -/
abbrev dummyByte : Byte := 0xFF#8

/-- FREE VALUE: the busy level the chip drives at the n-th environment draw (00_scope.md R23, R28; log 3). -/
opaque chipBusy : Nat → Bool
/-- FREE VALUE: the byte the chip answers at the n-th environment draw (00_scope.md R23, R28; log 3). -/
opaque chipRx : Nat → Byte
/-- FREE VALUE: the transfer-error input at the n-th environment draw (00_scope.md R16, R23, R28; log 3). -/
opaque chipErr : Nat → Bool
/-- FREE VALUE: what HZ2REG writes to FCINT when the integer part does not fit the 32-bit register, which only a very large
FACTOR can cause and for which no rule states a result (43_frequency.md R200; log 10). -/
opaque fcintBeyondWord : Nat → Word

end Config

/-- The parameters a model takes (00_scope.md R11, R13 to R16; 30_encoding.md R103). They are fixed when the block is built
(70_reset_and_hazards.md R264): no step writes them. -/
structure Params where
  /-- CMD_FIRST (R14, OPEN). -/
  cmdFirst : Byte
  /-- CMD_LAST (R14, OPEN). -/
  cmdLast : Byte
  /-- STD_BASE_CMD (30_encoding.md R103, OPEN): used by the host only. -/
  stdBaseCmd : Byte
  /-- POLL_US (R13). -/
  pollUs : Nat
  /-- T_NOTX_US (R13). -/
  tNotxUs : Nat
  /-- T_TX_US (R13). -/
  tTxUs : Nat
  /-- T_TXRX_US (R13). -/
  tTxrxUs : Nat
  /-- T_INIT_US (R13). -/
  tInitUs : Nat
  /-- T_WAKE_SETTLE_MS (R13): used by the host only. R13 gives no upper bound; above 65535 it does not fit DELAY's field MS (log 19). -/
  tWakeSettleMs : Nat
  /-- FACTOR (R11). -/
  factor : Nat
  /-- HAS_LAYOUT_A (R15). -/
  hasLayoutA : Bool
  /-- SPI_CAN_FAIL (R16). -/
  spiCanFail : Bool
deriving DecidableEq, Repr

/-- The defaults of R11, R13, R15 and R16 (log 2). The three OPEN ids have no default: 0x01, 0x7F and 0x01 are a DESIGN CHOICE
(log 1; 95_test_vectors.md uses the same range "for the vectors only"). -/
def Params.default : Params where
  cmdFirst := 0x01#8
  cmdLast := 0x7F#8
  stdBaseCmd := 0x01#8
  pollUs := 100
  tNotxUs := 2000000
  tTxUs := 15000000
  tTxrxUs := 60000000
  tInitUs := 5000000
  tWakeSettleMs := 100
  factor := 1
  hasLayoutA := false
  spiCanFail := true

/-- The constraints the spec puts on any choice of the parameters: R13 (POLL_US and every T at least 1), R14
(CMD_FIRST ≤ CMD_LAST), 30_encoding.md R103 (the four network-standard ids lie in the range). -/
def Params.wf (p : Params) : Bool :=
  decide (1 ≤ p.pollUs) && decide (1 ≤ p.tNotxUs) && decide (1 ≤ p.tTxUs) && decide (1 ≤ p.tTxrxUs)
    && decide (1 ≤ p.tInitUs) && decide (p.cmdFirst.toNat ≤ p.cmdLast.toNat)
    && decide (p.cmdFirst.toNat ≤ p.stdBaseCmd.toNat) && decide (p.stdBaseCmd.toNat + 3 ≤ p.cmdLast.toNat)

end Sys2Proof
end

