-- ==== Sys2Proof/Machine/State.lean ====
section
/-! DEFINITION. The state of the block: the host-visible registers (10_state.md R30 to R39), the byte buffers (R40), the internal
FSM state (R45), the parameters, and the model's own fields for the host, the chip and the order of moves. Plain data only. -/

namespace Sys2Proof.Machine

/-- FSM states (10_state.md R46). Codes 12 to 14 are never entered and have no constructor. -/
inductive FsmState where
  | idle | sWaitIdle | sWaitAccept | sXfer | sWaitDone | rWaitReady | rXferLen | rXfer | rWaitDone | wWaitHigh | dly | smp | fault
deriving DecidableEq, Repr

/-- RESULT codes (10_state.md R33). Codes 6 and 7 are never produced and have no constructor. -/
inductive OpResult where
  | ok | timeout | acklen | ackerr | buserr | fatal
deriving DecidableEq, Repr

/-- FCAUSE codes (10_state.md R35; 60_exceptions.md R230). Codes 9 to 15 are never produced and have no constructor. -/
inductive FatalCause where
  | none | busy | illegalOp | badCmd | badLen | badCap | freqRange | regRange | layoutUnsupported
deriving DecidableEq, Repr

/-- CONFIG.LAYOUT (10_state.md R36): 0 = Layout B, 1 = Layout A. -/
inductive Layout where
  | b | a
deriving DecidableEq, Repr

/-- CONFIG.CAPMODE (10_state.md R36): 0 = the full 26-byte buffer, 1 = the expected ACK size. -/
inductive CapMode where
  | full | expected
deriving DecidableEq, Repr

/-- CONFIG (10_state.md R36): its two live fields; the reserved bits hold nothing. -/
structure ConfigReg where
  layout : Layout
  capMode : CapMode
deriving DecidableEq, Repr

/-- DRVSTATE (10_state.md R37). -/
structure DrvState where
  valid : Bool
  devErr : Byte
  devState : Byte
deriving DecidableEq, Repr

/-- ACKINFO (10_state.md R38). -/
structure AckInfo where
  aplen : BitVec 5
  astate : Byte
  aerr : Byte
  alen : Byte
deriving DecidableEq, Repr

/-- One event of the wire trace (00_scope.md R25). -/
inductive Event where
  /-- `Sample(level)`; true is high. -/
  | sample (level : Bool)
  /-- `Xfer(tx, rx)`. -/
  | xfer (tx rx : Byte)
  | select
  | deselect
  | tick
deriving DecidableEq, Repr

/-- One host access, `MemRead(addr, 4)` or `MemWrite(addr, 4, v)` (20_memory.md R70); the offset has 8 bits (R71). -/
inductive HostAccess where
  | read (addr : BitVec 8)
  | write (addr : BitVec 8) (v : Word)
deriving DecidableEq, Repr

/-- The response of one host access (20_memory.md R70): `ok` is OK, else ERR; a read also returns a word. -/
inductive HostResp where
  | read (ok : Bool) (data : Word)
  | write (ok : Bool)
deriving DecidableEq, Repr

/-- One entry of the model's agenda: which agent moves next (20_memory.md R80; log 4). -/
inductive Move where
  /-- The FSM takes its enabled step, if it has one. -/
  | fsm
  /-- The host makes one access. -/
  | host (a : HostAccess)
  /-- The host's loop WAITDONE (30_encoding.md R100; log 13). -/
  | waitDone
  /-- The rst input is asserted (70_reset_and_hazards.md R260). -/
  | rst
deriving DecidableEq, Repr

/-- The four byte buffers (10_state.md R40). -/
inductive Buf where
  | pin | txf | rxf | apay
deriving DecidableEq, Repr

/-- The storage of the byte buffers: the bytes that are not 0x00, at their host byte offsets, offsets strictly rising (log 8). An
unlisted offset reads 0x00, the reset value of every buffer byte (10_state.md R40, R50). -/
abbrev Memory := List Host.Cell

/-- The whole state. -/
structure State where
  /-- The parameters, fixed when the block is built (00_scope.md R11 to R16). -/
  params : Params
  /-- OPWORD (10_state.md R31). -/
  opword : Word
  /-- STATUS.DONE (10_state.md R34). -/
  done : Bool
  /-- STATUS.FATAL (60_exceptions.md R233). -/
  fatal : Bool
  /-- STATUS.RESULT (10_state.md R33). -/
  result : OpResult
  /-- STATUS.ANOMALY (42_command_engine.md R184). -/
  anomaly : Bool
  /-- STATUS.RDY (41_transport.md R170). -/
  rdy : Bool
  /-- STATUS.FCAUSE (10_state.md R35). -/
  fcause : FatalCause
  /-- CONFIG (10_state.md R36). -/
  config : ConfigReg
  /-- DRVSTATE (10_state.md R37). -/
  drvstate : DrvState
  /-- ACKINFO (10_state.md R38). -/
  ackinfo : AckInfo
  /-- FREQ (10_state.md R39). -/
  freq : Word
  /-- FCINT (10_state.md R39). -/
  fcint : Word
  /-- FCFRAC (10_state.md R39). -/
  fcfrac : Word
  /-- DREG0, its 16 live bits (10_state.md R39). -/
  dreg0 : BitVec 16
  /-- DREG1, its 16 live bits (10_state.md R39). -/
  dreg1 : BitVec 16
  /-- PIN, TXF, RXF and APAY (10_state.md R40). -/
  mem : Memory
  /-- S.st, which is also STATUS.STATE (10_state.md R45, R46). -/
  st : FsmState
  /-- S.op (10_state.md R45). -/
  op : Word
  /-- S.k (10_state.md R45). -/
  k : Nat
  /-- S.i (10_state.md R45). -/
  i : Nat
  /-- S.len (10_state.md R45). -/
  len : Nat
  /-- S.cap (10_state.md R45). -/
  cap : Nat
  /-- S.L (10_state.md R45). -/
  lenByte : Byte
  /-- S.d (10_state.md R45). -/
  d : Nat
  /-- S.cs, which is also STATUS.CS_N; true is inactive, high (10_state.md R32, R45). -/
  csN : Bool
  /-- S.trace, oldest event first (00_scope.md R25). -/
  trace : List Event
  /-- MODEL: the busy levels the chip is to drive at the next samples (log 3). -/
  busyIn : List Bool
  /-- MODEL: the bytes and error flags the chip is to answer at the next exchanges (log 3). -/
  xchgIn : List (Byte × Bool)
  /-- MODEL: how many environment draws have been made, the argument of the opaque draws (log 3). -/
  draws : Nat
  /-- MODEL: the moves that are to happen next (log 4). -/
  agenda : List Move
  /-- MODEL: the host bus responses so far, oldest first (log 12). -/
  resps : List HostResp
deriving DecidableEq, Repr

/-- The outcomes in which a run stops with a fault. -/
inductive Fault where
  /-- The block is in FAULT and nothing more is on the agenda: the block is stopped and only reset can go on. Raised by `step` alone,
  because a reached FAULT state must be a fault outcome and never a successful end (60_exceptions.md R234; log 6). Safe. -/
  | stopped (cause : FatalCause)
deriving DecidableEq, Repr

/-- The outcomes in which the model gives no meaning. -/
inductive Refusal where
  /-- An instruction that has no meaning in the model: raised by an arm of `exec` only; no arm raises it now. Safe. -/
  | notModelled (mnemonic : String)
deriving DecidableEq, Repr

/-- The outcome of a step of this machine. -/
abbrev Outcome := Host.Outcome State Fault Refusal

/-- The state right after reset of a block with the given parameters: every value of 10_state.md R45 and R50. The model's own fields
(`busyIn`, `xchgIn`, `draws`, `agenda`, `resps`) start empty or 0 (logs 3, 4, 12). -/
def State.resetWith (p : Params) : State where
  params := p
  opword := 0#32
  done := false
  fatal := false
  result := .ok
  anomaly := false
  rdy := false
  fcause := .none
  config := ⟨.b, .full⟩
  drvstate := ⟨false, 0#8, 0#8⟩
  ackinfo := ⟨0#5, 0#8, 0#8, 0#8⟩
  freq := 0#32
  fcint := 0#32
  fcfrac := 0#32
  dreg0 := 0#16
  dreg1 := 0#16
  mem := []
  st := .idle
  op := 0#32
  k := 0
  i := 0
  len := 0
  cap := 0
  lenByte := 0#8
  d := 0
  csN := true
  trace := []
  busyIn := []
  xchgIn := []
  draws := 0
  agenda := []
  resps := []

/-- The machine right after reset (10_state.md R50), with the default parameters (logs 1, 2). -/
def State.reset : State := State.resetWith Params.default

end Sys2Proof.Machine
end

