-- ==== Sys2Proof/Machine/Ops.lean ====
section
/-! DEFINITION. The shared operations: the byte buffers and their storage, the chip-side primitives (00_scope.md R23), `finish`,
taking a Fatal (60_exceptions.md R233) and reset, the one way out of it (70_reset_and_hazards.md R260), the frame builders and
ParseAck (40_frame_codec.md R120, R124), the dummy fill (41_transport.md R147). -/

namespace Sys2Proof.Machine

/-! ### Storage of the buffers -/

/-- What an unlisted offset reads as: the reset value of every buffer byte (10_state.md R40, R50). -/
def Memory.blank : Byte := 0x00#8

/-- The byte stored at an offset. -/
def Memory.read : Memory → Nat → Byte
  | [], _ => Memory.blank
  | (a, b) :: rest, x => if a = x then b else Memory.read rest x

/-- The storage with an offset no longer listed. -/
def Memory.erase : Memory → Nat → Memory
  | [], _ => []
  | (a, b) :: rest, x => if a = x then Memory.erase rest x else (a, b) :: Memory.erase rest x

/-- The storage with a cell put in before the first higher offset. -/
def Memory.insert : Memory → Nat → Byte → Memory
  | [], x, v => [(x, v)]
  | (a, b) :: rest, x, v => if x < a then (x, v) :: (a, b) :: rest else (a, b) :: Memory.insert rest x v

/-- The storage after one byte is written; writing what an unlisted offset reads as removes the entry. -/
def Memory.write (m : Memory) (x : Nat) (v : Byte) : Memory :=
  if v = Memory.blank then Memory.erase m x else Memory.insert (Memory.erase m x) x v

/-- The one canonical form: offsets strictly rising, no entry equal to what an unlisted offset reads as. -/
def Memory.wf : Memory → Bool
  | [] => true
  | [(_, b)] => decide (b ≠ Memory.blank)
  | (a, b) :: (a', b') :: rest => decide (b ≠ Memory.blank) && decide (a < a') && Memory.wf ((a', b') :: rest)

/-- Host byte offset of a buffer's byte 0 (20_memory.md R72). -/
def Buf.base : Buf → Nat
  | .pin => 0x40
  | .txf => 0x50
  | .rxf => 0x70
  | .apay => 0x90

/-- Bytes of a buffer (10_state.md R40). -/
def Buf.size : Buf → Nat
  | .pin => 12
  | .txf => 26
  | .rxf => 26
  | .apay => 23

/-- Byte `j` of a buffer; a pad byte (any index past the buffer) reads 0 (10_state.md R40). -/
def Memory.readBuf (m : Memory) (b : Buf) (j : Nat) : Byte :=
  if j < b.size then Memory.read m (b.base + j) else 0x00#8

/-- Byte `j` of a buffer written; a write to a pad byte is ignored (10_state.md R40). -/
def Memory.writeBuf (m : Memory) (b : Buf) (j : Nat) (v : Byte) : Memory :=
  if j < b.size then Memory.write m (b.base + j) v else m

/-- `n` bytes `val 0, val 1, …` written to a buffer from index `start` on, in increasing index order (00_scope.md R21). -/
def Memory.storeBytes (m : Memory) (b : Buf) (start : Nat) (val : Nat → Byte) : Nat → Memory
  | 0 => m
  | n + 1 => Memory.writeBuf (Memory.storeBytes m b start val n) b (start + n) (val n)

/-- PIN[j] (10_state.md R40). -/
abbrev State.pin (s : State) (j : Nat) : Byte := Memory.readBuf s.mem .pin j
/-- TXF[j] (10_state.md R40). -/
abbrev State.txf (s : State) (j : Nat) : Byte := Memory.readBuf s.mem .txf j
/-- RXF[j] (10_state.md R40). -/
abbrev State.rxf (s : State) (j : Nat) : Byte := Memory.readBuf s.mem .rxf j
/-- APAY[j] (10_state.md R40). -/
abbrev State.apay (s : State) (j : Nat) : Byte := Memory.readBuf s.mem .apay j

/-- RXF[j] <- v. -/
def setRxf (j : Nat) (v : Byte) (s : State) : State := { s with mem := Memory.writeBuf s.mem .rxf j v }

/-! ### Chip-side primitives (00_scope.md R23); each appends its event to the trace (R25) -/

/-- The level the busy line shows at the next sample: the environment's choice (R28; log 3). -/
def State.busyNext (s : State) : Bool := s.busyIn.headD (Config.chipBusy s.draws)

/-- The byte the chip answers at the next exchange: the environment's choice (R28; log 3). -/
def State.rxNext (s : State) : Byte := (s.xchgIn.headD (Config.chipRx s.draws, Config.chipErr s.draws)).1

/-- The transfer-error input at the next exchange: always false when SPI_CAN_FAIL is false (R16; log 3). -/
def State.errNext (s : State) : Bool :=
  (s.xchgIn.headD (Config.chipRx s.draws, Config.chipErr s.draws)).2 && s.params.spiCanFail

/-- `sample_busy()`: the sampled level is `s.busyNext`. -/
def sampleBusy (s : State) : State :=
  { s with busyIn := s.busyIn.tail, draws := s.draws + 1, trace := s.trace ++ [.sample s.busyNext] }

/-- `spi_xchg(tx)`: the received byte is `s.rxNext` and the error flag `s.errNext`. The exchange is recorded whether or not it
reports an error (log 16). -/
def spiXchg (tx : Byte) (s : State) : State :=
  { s with xchgIn := s.xchgIn.tail, draws := s.draws + 1, trace := s.trace ++ [.xfer tx s.rxNext] }

/-- `cs_assert()`. -/
def csAssert (s : State) : State := { s with csN := false, trace := s.trace ++ [.select] }

/-- `cs_release()`: records Deselect whether or not chip-select was active. -/
def csRelease (s : State) : State := { s with csN := true, trace := s.trace ++ [.deselect] }

/-- `tick()`. -/
def tick (s : State) : State := { s with trace := s.trace ++ [.tick] }

/-! ### Control primitives (00_scope.md R24) -/

/-- `goto ST`. -/
def goto (st : FsmState) (s : State) : State := { s with st := st }

/-- Entry to a wait state: S.k is 0 there (41_transport.md R141). -/
def enterWait (st : FsmState) (s : State) : State := { s with k := 0, st := st }

/-- `finish(res)` (10_state.md R34). -/
def finish (res : OpResult) (s : State) : State := { s with st := .idle, done := true, result := res }

/-- An open transport phase: states 1 to 8 (41_transport.md R142; 60_exceptions.md R233). -/
def FsmState.phaseOpen : FsmState → Bool
  | .sWaitIdle | .sWaitAccept | .sXfer | .sWaitDone | .rWaitReady | .rXferLen | .rXfer | .rWaitDone => true
  | .idle | .wWaitHigh | .dly | .smp | .fault => false

/-- STATUS.BUSY: STATE is neither IDLE nor FAULT (10_state.md R32). -/
def FsmState.busy : FsmState → Bool
  | .idle | .fault => false
  | .sWaitIdle | .sWaitAccept | .sXfer | .sWaitDone | .rWaitReady | .rXferLen | .rXfer | .rWaitDone => true
  | .wWaitHigh | .dly | .smp => true

/-- TAKING THE EXCEPTION. `raise Fatal(cause)` (60_exceptions.md R233): an open phase releases chip-select once, the cause and the
FATAL result are recorded, and the FSM enters FAULT. There is no vector and no handler; nothing else is saved. -/
def raiseFatal (cause : FatalCause) (s : State) : State :=
  { (if s.st.phaseOpen then csRelease s else s) with
    fatal := true, fcause := cause, result := .fatal, done := true, st := .fault }

/-- LEAVING IT. There is no return-from-fault operation (60_exceptions.md R235); reset is the only way out (R234). Every register,
buffer and internal state takes its reset value, the trace is emptied and no Deselect is recorded (70_reset_and_hazards.md R260).
The parameters and what belongs to the host and the chip are not the block's to reset (log 12). -/
def blockReset (s : State) : State :=
  { State.resetWith s.params with
    busyIn := s.busyIn, xchgIn := s.xchgIn, draws := s.draws, agenda := s.agenda, resps := s.resps }

/-- The host bus answers (20_memory.md R70; log 12). -/
def respond (r : HostResp) (s : State) : State := { s with resps := s.resps ++ [r] }

/-! ### Frames -/

/-- The I-frame `[n + 2, cmd, PIN[0..n-1]]` put into TXF; TXF[n+2..25] keep their values (40_frame_codec.md R119, R120). -/
def packFrame (cmd : Byte) (n : Nat) (s : State) : State :=
  { s with
    mem := Memory.storeBytes
      (Memory.writeBuf (Memory.writeBuf s.mem .txf 0 (BitVec.ofNat 8 (n + Config.iframeHdr))) .txf 1 cmd)
      .txf Config.iframeHdr s.pin n }

/-- The dummy fill: TXF[0..cap-1] <- DUMMY_BYTE (41_transport.md R147). -/
def dummyFill (cap : Nat) (s : State) : State :=
  { s with mem := Memory.storeBytes s.mem .txf 0 (fun _ => Config.dummyByte) cap }

/-- ParseAck(paycap) (40_frame_codec.md R124): `none` is ACKLEN, and then nothing is written. -/
def parseAck (paycap : Nat) (s : State) : Option State :=
  let l := (s.rxf 0).toNat
  if l < Config.ackHdr then none
  else if paycap < l - Config.ackHdr then none
  else some { s with
    ackinfo := ⟨BitVec.ofNat 5 (l - Config.ackHdr), s.rxf 2, s.rxf 1, s.rxf 0⟩
    mem := Memory.storeBytes s.mem .apay 0 (fun j => s.rxf (Config.ackHdr + j)) (l - Config.ackHdr) }

/-- SendPhase entered with `len` bytes to shift (41_transport.md R144, R145). -/
def openSend (len : Nat) (s : State) : State := enterWait .sWaitIdle { s with len := len }

/-- ReceivePhase entered with the capacity already in S.cap: the dummy fill, then R_WAIT_READY (41_transport.md R146, R147). -/
def openReceive (s : State) : State := enterWait .rWaitReady (dummyFill s.cap s)

end Sys2Proof.Machine
end

