-- ==== Sys2Proof/Machine/Operands.lean ====
section
/-! DEFINITION. Operands: the fields of the latched operation word that the FSM reads (20_memory.md R83), the poll bounds and tick
counts of 00_scope.md R17, and the legal command range. -/

namespace Sys2Proof.Machine

/-- S.op[3:0]. -/
abbrev State.opCode (s : State) : BitVec 4 := fieldOp s.op
/-- The timeout class S.op[17:16] (30_encoding.md R95). -/
abbrev State.opTc (s : State) : TimeoutClass := tcOfField (fieldTc s.op)
/-- NA, S.op[18]. -/
abbrev State.opNa (s : State) : Bool := fieldNa s.op
/-- APL, S.op[23:19]. -/
abbrev State.opApl (s : State) : Nat := (fieldApl s.op).toNat

/-- The operation in flight is XACT (30_encoding.md R93). -/
def State.isXact (s : State) : Bool := decide (s.opCode = 0x8#4)
/-- The operation in flight ends its receive phase with ParseStep: XACT or READACK (42_command_engine.md R183). -/
def State.parsesAck (s : State) : Bool := decide (s.opCode = 0x8#4) || decide (s.opCode = 0xA#4)

/-- Quotient rounded up. -/
def ceilDiv (a b : Nat) : Nat := (a + (b - 1)) / b

/-- The timeout of a class in microseconds (30_encoding.md R95). -/
def timeoutUs (p : Params) : TimeoutClass → Nat
  | .notx => p.tNotxUs
  | .tx => p.tTxUs
  | .txrx => p.tTxrxUs
  | .init => p.tInitUs

/-- N(TC): samples a wait takes before it times out, ceil(T / POLL_US) and at least 1 (00_scope.md R17). -/
def pollBound (p : Params) (tc : TimeoutClass) : Nat := max 1 (ceilDiv (timeoutUs p tc) p.pollUs)

/-- N_NOTX. -/
abbrev State.nNotx (s : State) : Nat := pollBound s.params .notx

/-- D(m): ticks of a DELAY of m milliseconds, ceil(m·1000 / POLL_US) (00_scope.md R17). -/
def delayTicks (p : Params) (ms : Nat) : Nat := ceilDiv (ms * 1000) p.pollUs

/-- CMD_FIRST ≤ cmd ≤ CMD_LAST (30_encoding.md R94; 00_scope.md R14). -/
def cmdLegal (p : Params) (cmd : Byte) : Bool :=
  decide (p.cmdFirst.toNat ≤ cmd.toNat) && decide (cmd.toNat ≤ p.cmdLast.toNat)

/-- XACT's receive capacity (42_command_engine.md R182). -/
def xactCap (m : CapMode) (apl : Nat) : Nat :=
  match m with
  | .full => Config.ackFrameMax
  | .expected => Config.ackHdr + apl

end Sys2Proof.Machine
end

