-- ==== Sys2Proof/Machine/Flags.lean ====
section
/-! DEFINITION. Status: the codes and words the host reads (10_state.md R32 to R39, R46) and the flag updates of a launch, of ISRDY
and of XACT's parse (10_state.md R48). -/

namespace Sys2Proof.Machine

/-- STATUS.STATE code (10_state.md R46). -/
def FsmState.code : FsmState → BitVec 4
  | .idle => 0#4
  | .sWaitIdle => 1#4
  | .sWaitAccept => 2#4
  | .sXfer => 3#4
  | .sWaitDone => 4#4
  | .rWaitReady => 5#4
  | .rXferLen => 6#4
  | .rXfer => 7#4
  | .rWaitDone => 8#4
  | .wWaitHigh => 9#4
  | .dly => 10#4
  | .smp => 11#4
  | .fault => 15#4

/-- RESULT code (10_state.md R33). -/
def OpResult.code : OpResult → BitVec 3
  | .ok => 0#3
  | .timeout => 1#3
  | .acklen => 2#3
  | .ackerr => 3#3
  | .buserr => 4#3
  | .fatal => 5#3

/-- FCAUSE code (10_state.md R35). -/
def FatalCause.code : FatalCause → BitVec 4
  | .none => 0#4
  | .busy => 1#4
  | .illegalOp => 2#4
  | .badCmd => 3#4
  | .badLen => 4#4
  | .badCap => 5#4
  | .freqRange => 6#4
  | .regRange => 7#4
  | .layoutUnsupported => 8#4

/-- STATUS.BUSY (10_state.md R32). -/
abbrev State.busy (s : State) : Bool := s.st.busy

/-- The STATUS word, its fields from most to least significant (10_state.md R32). -/
def statusWord (s : State) : Word :=
  0#12 ++ s.fcause.code ++ 0#3 ++ BitVec.ofBool s.rdy ++ BitVec.ofBool s.anomaly ++ s.result.code ++ BitVec.ofBool s.csN
    ++ BitVec.ofBool s.fatal ++ BitVec.ofBool s.done ++ BitVec.ofBool s.busy ++ s.st.code

/-- The CONFIG word (10_state.md R36). -/
def configWord (c : ConfigReg) : Word :=
  0#30 ++ BitVec.ofBool (decide (c.capMode = .expected)) ++ BitVec.ofBool (decide (c.layout = .a))

/-- What CONFIG holds after a write of `v`; the reserved bits are ignored (10_state.md R36). -/
def configOfWord (v : Word) : ConfigReg where
  layout := if v.getLsbD 0 then .a else .b
  capMode := if v.getLsbD 1 then .expected else .full

/-- The DRVSTATE word (10_state.md R37). -/
def drvstateWord (r : DrvState) : Word := 0#15 ++ BitVec.ofBool r.valid ++ r.devErr ++ r.devState

/-- The ACKINFO word (10_state.md R38). -/
def ackinfoWord (r : AckInfo) : Word := 0#3 ++ r.aplen ++ r.astate ++ r.aerr ++ r.alen

/-- DREG0 or DREG1 as a host word: bits [31:16] read 0 (10_state.md R39). -/
def dregWord (r : BitVec 16) : Word := r.setWidth 32

/-- What DREG0 or DREG1 holds after a write of `v`: bits [31:16] are ignored (10_state.md R39). -/
def dregOfWord (v : Word) : BitVec 16 := v.extractLsb' 0 16

/-- The flag updates of every launch: DONE <- 0, RESULT <- 0, ANOMALY <- 0 (30_encoding.md R92; 10_state.md R34). -/
def clearLaunchFlags (s : State) : State := { s with done := false, result := .ok, anomaly := false }

/-- RDY <- v (41_transport.md R170). -/
def setRdy (v : Bool) (s : State) : State := { s with rdy := v }

/-- XACT's anomaly check: ANOMALY <- 1 when the declared length differs from 3 + APL, else unchanged (42_command_engine.md R183,
R184). -/
def flagAnomaly (s : State) : State :=
  if s.isXact && decide ((s.rxf 0).toNat ≠ Config.ackHdr + s.opApl) then { s with anomaly := true } else s

end Sys2Proof.Machine
end

