-- ==== Sys2Proof/Machine/Engine.lean ====
section
/-! DEFINITION. The launch parts of the command engine operations XACT, SENDNB and READACK (42_command_engine.md R180, R188, R190) and
the continuations SendDone and RecvDone (R181, R183). -/

namespace Sys2Proof.Machine

/-- XACT (42_command_engine.md R180). TC is read from S.op by the receive phase. -/
def execXact (cmd : Byte) (n : Nat) (_tc : TimeoutClass) (na : Bool) (apl : Nat) (s : State) : Outcome :=
  if cmdLegal s.params cmd = false then .next (raiseFatal .badCmd s)
  else if Config.iframePayMax < n then .next (raiseFatal .badLen s)
  else if na = false ∧ Config.ackPayMax < apl then .next (raiseFatal .badLen s)
  else
    let t := packFrame cmd n s
    let u := if na then t else { t with cap := xactCap s.config.capMode apl }
    .next (openSend (n + Config.iframeHdr) u)

/-- SENDNB (42_command_engine.md R188). -/
def execSendnb (cmd : Byte) (n : Nat) (s : State) : Outcome :=
  if cmdLegal s.params cmd = false then .next (raiseFatal .badCmd s)
  else if Config.iframePayMax < n then .next (raiseFatal .badLen s)
  else .next (openSend (n + Config.iframeHdr) (packFrame cmd n s))

/-- READACK (42_command_engine.md R190). TC is read from S.op by the receive phase. -/
def execReadack (cap : Nat) (_tc : TimeoutClass) (s : State) : Outcome :=
  if cap < Config.ackHdr ∨ Config.ackFrameMax < cap then .next (raiseFatal .badCap s)
  else .next (openReceive { s with cap := cap })

/-- SendDone: what follows the release that ends a send phase (41_transport.md R144; 42_command_engine.md R181). -/
def sendDone (s : State) : State :=
  if s.isXact && !s.opNa then openReceive s else finish .ok s

/-- ParseStep, RecvDone of XACT and READACK (42_command_engine.md R183). -/
def parseStep (s : State) : State :=
  match parseAck (s.cap - Config.ackHdr) s with
  | none => finish .acklen s
  | some t =>
    let u := flagAnomaly { t with drvstate := ⟨true, t.rxf 1, t.rxf 2⟩ }
    if t.rxf 1 ≠ 0#8 then finish .ackerr u else finish .ok u

/-- RecvDone: finish(OK) for RECV, ParseStep for XACT and READACK (41_transport.md R146). -/
def recvDone (s : State) : State := if s.parsesAck then parseStep s else finish .ok s

end Sys2Proof.Machine
end

