-- ==== Sys2Proof/Machine/Fsm.lean ====
section
/-! DEFINITION. One step of the FSM (41_transport.md R140 to R147, R160, R170, R175; 10_state.md R46): what carries a launched
multi-step operation to its end. -/

namespace Sys2Proof.Machine

/-- PollStep(target, N, onOK, onTimeout): one sample, and on a mismatch one tick and one count (41_transport.md R141). -/
def pollStep (target : Bool) (n : Nat) (onOK onTimeout : State → State) (s : State) : State :=
  if s.busyNext = target then onOK (sampleBusy s)
  else
    let t := tick { sampleBusy s with k := s.k + 1 }
    if n ≤ s.k + 1 then onTimeout t else t

/-- The exit of a transport phase: the single release, then the result (41_transport.md R142). -/
def abortPhase (res : OpResult) (s : State) : State := finish res (csRelease s)

/-- S_WAIT_IDLE (41_transport.md R144). -/
def stepSWaitIdle (s : State) : State :=
  pollStep true s.nNotx (fun t => enterWait .sWaitAccept (csAssert t)) (abortPhase .timeout) s

/-- S_WAIT_ACCEPT (41_transport.md R144). -/
def stepSWaitAccept (s : State) : State :=
  pollStep false s.nNotx (fun t => goto .sXfer { t with i := 0 }) (abortPhase .timeout) s

/-- S_XFER (41_transport.md R144); the received byte is discarded. -/
def stepSXfer (s : State) : State :=
  let t := spiXchg (s.txf s.i) s
  if s.errNext then abortPhase .buserr t
  else if s.i + 1 = s.len then enterWait .sWaitDone { t with i := s.i + 1 }
  else { t with i := s.i + 1 }

/-- S_WAIT_DONE (41_transport.md R144). -/
def stepSWaitDone (s : State) : State :=
  pollStep true s.nNotx (fun t => sendDone (csRelease t)) (abortPhase .timeout) s

/-- R_WAIT_READY (41_transport.md R146): the class of S.op bounds this wait (R143). -/
def stepRWaitReady (s : State) : State :=
  pollStep false (pollBound s.params s.opTc) (fun t => goto .rXferLen (csAssert t)) (abortPhase .timeout) s

/-- R_XFER_LEN (41_transport.md R146). -/
def stepRXferLen (s : State) : State :=
  let t := spiXchg Config.dummyByte s
  let rx := s.rxNext
  if s.errNext then abortPhase .buserr t
  else
    let u := { setRxf 0 rx t with lenByte := rx }
    if rx.toNat = 0 ∨ s.cap < rx.toNat then abortPhase .acklen u
    else if rx.toNat = 1 then enterWait .rWaitDone u
    else goto .rXfer { u with i := 1 }

/-- R_XFER (41_transport.md R146). -/
def stepRXfer (s : State) : State :=
  let t := spiXchg Config.dummyByte s
  if s.errNext then abortPhase .buserr t
  else
    let u := { setRxf s.i s.rxNext t with i := s.i + 1 }
    if s.i + 1 = s.lenByte.toNat then enterWait .rWaitDone u else u

/-- R_WAIT_DONE (41_transport.md R146). -/
def stepRWaitDone (s : State) : State :=
  pollStep true s.nNotx (fun t => recvDone (csRelease t)) (abortPhase .timeout) s

/-- W_WAIT_HIGH (41_transport.md R160): chip-select is not touched. -/
def stepWWaitHigh (s : State) : State :=
  pollStep true (pollBound s.params s.opTc) (finish .ok) (finish .timeout) s

/-- DLY (41_transport.md R175). -/
def stepDly (s : State) : State :=
  let t := tick { s with d := s.d - 1 }
  if s.d - 1 = 0 then finish .ok t else t

/-- SMP (41_transport.md R170): RDY <- 1 when the sampled level is low. -/
def stepSmp (s : State) : State := finish .ok (setRdy (!s.busyNext) (sampleBusy s))

/-- The FSM's one enabled step; none is enabled in IDLE and FAULT, and then nothing changes (41_transport.md R140; 60_exceptions.md
R234). -/
def fsmStep (s : State) : State :=
  match s.st with
  | .idle => s
  | .sWaitIdle => stepSWaitIdle s
  | .sWaitAccept => stepSWaitAccept s
  | .sXfer => stepSXfer s
  | .sWaitDone => stepSWaitDone s
  | .rWaitReady => stepRWaitReady s
  | .rXferLen => stepRXferLen s
  | .rXfer => stepRXfer s
  | .rWaitDone => stepRWaitDone s
  | .wWaitHigh => stepWWaitHigh s
  | .dly => stepDly s
  | .smp => stepSmp s
  | .fault => s

/-- `n` FSM steps with no host access between them. -/
def fsmRun : Nat → State → State
  | 0, s => s
  | n + 1, s => fsmRun n (fsmStep s)

end Sys2Proof.Machine
end

