-- ==== Sys2Proof/Machine/Codec.lean ====
section
/-! DEFINITION. The launch parts of the frame codec operations PACK and PARSE (40_frame_codec.md R120, R125). -/

namespace Sys2Proof.Machine

/-- PACK (40_frame_codec.md R120). -/
def execPack (cmd : Byte) (n : Nat) (s : State) : Outcome :=
  if cmdLegal s.params cmd = false then .next (raiseFatal .badCmd s)
  else if Config.iframePayMax < n then .next (raiseFatal .badLen s)
  else .next (finish .ok (packFrame cmd n s))

/-- PARSE (40_frame_codec.md R125). -/
def execParse (cap : Nat) (s : State) : Outcome :=
  if Config.ackPayMax < cap then .next (raiseFatal .badCap s)
  else
    match parseAck cap s with
    | none => .next (finish .acklen s)
    | some t => .next (finish .ok t)

end Sys2Proof.Machine
end

