-- ==== Sys2Proof/Machine/Frequency.lean ====
section
/-! DEFINITION. The frequency register codec: HZ2REG, REG2HZ, STORE and RESTORE (43_frequency.md R199 to R219). Arithmetic is exact on
natural numbers (00_scope.md R20). -/

namespace Sys2Proof.Machine

/-- fi of HZ2REG: floor(FACTOR·f / XO_HZ) (43_frequency.md R200). -/
def hzToFcint (factor f : Nat) : Nat := factor * f / Config.xoHz

/-- ff of HZ2REG: floor((r << 19) / XO_HZ) with r the remainder (43_frequency.md R200, R201). -/
def hzToFcfrac (factor f : Nat) : Nat :=
  (factor * f - hzToFcint factor f * Config.xoHz) * 2 ^ Config.fracBits / Config.xoHz

/-- The FCINT word of an integer part; one that does not fit the register is a FREE VALUE (log 10). -/
def fcintWord (fi : Nat) : Word := if fi < 2 ^ 32 then BitVec.ofNat 32 fi else Config.fcintBeyondWord fi

/-- f of REG2HZ: ((5266·ff + 2048) >> 13) + 52·ff + fi·XO_HZ (43_frequency.md R203). -/
def regToHz (fi ff : Nat) : Nat := (5266 * ff + 2048) / 2 ^ 13 + 52 * ff + fi * Config.xoHz

/-- HZ2REG (43_frequency.md R200). -/
def execHz2reg (s : State) : Outcome :=
  let f := s.freq.toNat
  if f < Config.fMin ∨ Config.fMax < f then .next (raiseFatal .freqRange s)
  else .next (finish .ok
    { s with fcint := fcintWord (hzToFcint s.params.factor f)
             fcfrac := BitVec.ofNat 32 (hzToFcfrac s.params.factor f) })

/-- REG2HZ (43_frequency.md R203). -/
def execReg2hz (s : State) : Outcome :=
  if 63 < s.fcint.toNat ∨ 2 ^ 19 - 1 < s.fcfrac.toNat then .next (raiseFatal .regRange s)
  else .next (finish .ok { s with freq := BitVec.ofNat 32 (regToHz s.fcint.toNat s.fcfrac.toNat) })

/-- DREG0 of Layout B: fi[7:0], ff[23:16] (43_frequency.md R210). -/
def storeB0 (fi ff : Word) : BitVec 16 := fi.extractLsb' 0 8 ++ ff.extractLsb' 16 8
/-- DREG1 of Layout B: ff[15:0] (43_frequency.md R210). -/
def storeB1 (ff : Word) : BitVec 16 := ff.extractLsb' 0 16
/-- fi of Layout B: DREG0[15:8] (43_frequency.md R210). -/
def restoreBInt (d0 : BitVec 16) : Word := (d0.extractLsb' 8 8).setWidth 32
/-- ff of Layout B: the 24 bits DREG0[7:0], DREG1[15:0] (43_frequency.md R210). -/
def restoreBFrac (d0 d1 : BitVec 16) : Word := (d0.extractLsb' 0 8 ++ d1).setWidth 32

/-- DREG0 of Layout A: bits 15:10 zero, FRACEN = 1, ff[8:0] (43_frequency.md R212). -/
def storeA0 (ff : Word) : BitVec 16 := 0#6 ++ 1#1 ++ ff.extractLsb' 0 9
/-- DREG1 of Layout A: fi[5:0], ff[18:9] (43_frequency.md R212). -/
def storeA1 (fi ff : Word) : BitVec 16 := fi.extractLsb' 0 6 ++ ff.extractLsb' 9 10
/-- fi of Layout A: DREG1[15:10] (43_frequency.md R212). -/
def restoreAInt (d1 : BitVec 16) : Word := (d1.extractLsb' 10 6).setWidth 32
/-- ff of Layout A: the 19 bits DREG1[9:0], DREG0[8:0] (43_frequency.md R212). -/
def restoreAFrac (d0 d1 : BitVec 16) : Word := (d1.extractLsb' 0 10 ++ d0.extractLsb' 0 9).setWidth 32

/-- STORE (43_frequency.md R215). -/
def execStore (s : State) : Outcome :=
  match s.config.layout with
  | .a =>
    if s.params.hasLayoutA = false then .next (raiseFatal .layoutUnsupported s)
    else if 63 < s.fcint.toNat ∨ 2 ^ 19 - 1 < s.fcfrac.toNat then .next (raiseFatal .regRange s)
    else .next (finish .ok { s with dreg0 := storeA0 s.fcfrac, dreg1 := storeA1 s.fcint s.fcfrac })
  | .b =>
    if 255 < s.fcint.toNat ∨ 2 ^ 24 - 1 < s.fcfrac.toNat then .next (raiseFatal .regRange s)
    else .next (finish .ok { s with dreg0 := storeB0 s.fcint s.fcfrac, dreg1 := storeB1 s.fcfrac })

/-- RESTORE (43_frequency.md R218). -/
def execRestore (s : State) : Outcome :=
  match s.config.layout with
  | .a =>
    if s.params.hasLayoutA = false then .next (raiseFatal .layoutUnsupported s)
    else .next (finish .ok { s with fcint := restoreAInt s.dreg1, fcfrac := restoreAFrac s.dreg0 s.dreg1 })
  | .b => .next (finish .ok { s with fcint := restoreBInt s.dreg0, fcfrac := restoreBFrac s.dreg0 s.dreg1 })

end Sys2Proof.Machine
end

