-- ==== Sys2Proof/Machine/Transport.lean ====
section
/-! DEFINITION. The launch parts of the transport operations SEND, RECV, WAITRDY, ISRDY and DELAY (41_transport.md R145, R150, R160,
R170, R175). What follows the launch is run by the FSM (Machine/Fsm.lean). -/

namespace Sys2Proof.Machine

/-- SEND (41_transport.md R145). -/
def execSend (n : Nat) (s : State) : Outcome :=
  if n < 1 ∨ 14 < n then .next (raiseFatal .badLen s) else .next (openSend n s)

/-- RECV (41_transport.md R150). The first wait's class is read from S.op when the wait runs (R146), so the launch part does not
use `tc`. -/
def execRecv (cap : Nat) (_tc : TimeoutClass) (s : State) : Outcome :=
  if cap < 1 ∨ Config.ackFrameMax < cap then .next (raiseFatal .badCap s)
  else .next (openReceive { s with cap := cap })

/-- WAITRDY (41_transport.md R160). The class is read from S.op when the wait runs. -/
def execWaitrdy (_tc : TimeoutClass) (s : State) : Outcome := .next (enterWait .wWaitHigh s)

/-- ISRDY (41_transport.md R170). -/
def execIsrdy (s : State) : Outcome := .next (goto .smp (setRdy false s))

/-- DELAY (41_transport.md R175). -/
def execDelay (ms : Nat) (s : State) : Outcome :=
  if delayTicks s.params ms = 0 then .next (finish .ok s)
  else .next (goto .dly { s with d := delayTicks s.params ms })

end Sys2Proof.Machine
end

