-- ==== Sys2Proof/Machine/Dispatch.lean ====
section
/-! DEFINITION. The launch part of every operation (30_encoding.md R92, R93), one arm each. -/

namespace Sys2Proof.Machine

def exec (i : Instr) (s : State) : Host.Outcome State Fault Refusal :=
  match i with
  | .pack cmd n => Sys2Proof.Machine.execPack cmd n s
  | .parse cap => Sys2Proof.Machine.execParse cap s
  | .send n => Sys2Proof.Machine.execSend n s
  | .recv cap tc => Sys2Proof.Machine.execRecv cap tc s
  | .waitrdy tc => Sys2Proof.Machine.execWaitrdy tc s
  | .isrdy => Sys2Proof.Machine.execIsrdy s
  | .delay ms => Sys2Proof.Machine.execDelay ms s
  | .xact cmd n tc na apl => Sys2Proof.Machine.execXact cmd n tc na apl s
  | .sendnb cmd n => Sys2Proof.Machine.execSendnb cmd n s
  | .readack cap tc => Sys2Proof.Machine.execReadack cap tc s
  | .hz2reg => Sys2Proof.Machine.execHz2reg s
  | .reg2hz => Sys2Proof.Machine.execReg2hz s
  | .store => Sys2Proof.Machine.execStore s
  | .restore => Sys2Proof.Machine.execRestore s

end Sys2Proof.Machine
end

