-- ==== Sys2Proof/Machine/HostPort.lean ====
section
/-! DEFINITION. The host port (20_memory.md R70 to R77, 60_exceptions.md R236): the register map, reads, writes, and the launch of an
operation by a write to OPWORD (30_encoding.md R92). -/

namespace Sys2Proof.Machine

/-- What a host byte offset falls on (10_state.md R30). -/
inductive HostReg where
  | opword | status | config | drvstate | ackinfo | freq | fcint | fcfrac | dreg0 | dreg1
  /-- Word `w` of a byte buffer. -/
  | buf (b : Buf) (w : Nat)
deriving DecidableEq, Repr

/-- The register map of 10_state.md R30; `none` is misaligned or unmapped (20_memory.md R73). -/
def hostReg (addr : BitVec 8) : Option HostReg :=
  let a := addr.toNat
  if a % 4 ≠ 0 then none
  else if a = 0x00 then some .opword
  else if a = 0x04 then some .status
  else if a = 0x08 then some .config
  else if a = 0x0C then some .drvstate
  else if a = 0x10 then some .ackinfo
  else if a = 0x14 then some .freq
  else if a = 0x18 then some .fcint
  else if a = 0x1C then some .fcfrac
  else if a = 0x20 then some .dreg0
  else if a = 0x24 then some .dreg1
  else if 0x40 ≤ a ∧ a ≤ 0x4B then some (.buf .pin ((a - 0x40) / 4))
  else if 0x50 ≤ a ∧ a ≤ 0x6B then some (.buf .txf ((a - 0x50) / 4))
  else if 0x70 ≤ a ∧ a ≤ 0x8B then some (.buf .rxf ((a - 0x70) / 4))
  else if 0x90 ≤ a ∧ a ≤ 0xA7 then some (.buf .apay ((a - 0x90) / 4))
  else none

/-- The read-only registers: STATUS, DRVSTATE, ACKINFO and APAY (10_state.md R30; 20_memory.md R74). -/
def HostReg.readOnly : HostReg → Bool
  | .status | .drvstate | .ackinfo => true
  | .buf .apay _ => true
  | .buf .pin _ | .buf .txf _ | .buf .rxf _ => false
  | .opword | .config | .freq | .fcint | .fcfrac | .dreg0 | .dreg1 => false

/-- Word `w` of a buffer, byte 4w in the least significant place; pad bytes read 0 (20_memory.md R72). -/
def bufWord (m : Memory) (b : Buf) (w : Nat) : Word :=
  Memory.readBuf m b (4 * w + 3) ++ Memory.readBuf m b (4 * w + 2) ++ Memory.readBuf m b (4 * w + 1)
    ++ Memory.readBuf m b (4 * w)

/-- Byte `j` of a host word, byte 0 least significant (20_memory.md R72). -/
def wordByte (v : Word) (j : Nat) : Byte := v.extractLsb' (8 * j) 8

/-- A buffer with word `w` written; pad bytes ignore the write (20_memory.md R72). -/
def writeBufWord (m : Memory) (b : Buf) (w : Nat) (v : Word) : Memory := Memory.storeBytes m b (4 * w) (wordByte v) 4

/-- The current value of a mapped register, reserved bits 0 (20_memory.md R76). -/
def readReg (r : HostReg) (s : State) : Word :=
  match r with
  | .opword => s.opword
  | .status => statusWord s
  | .config => configWord s.config
  | .drvstate => drvstateWord s.drvstate
  | .ackinfo => ackinfoWord s.ackinfo
  | .freq => s.freq
  | .fcint => s.fcint
  | .fcfrac => s.fcfrac
  | .dreg0 => dregWord s.dreg0
  | .dreg1 => dregWord s.dreg1
  | .buf b w => bufWord s.mem b w

/-- A writable register other than OPWORD takes the value (20_memory.md R75 step 3); the read-only ones are not written (R74), and
OPWORD is written by `launch`. -/
def writeReg (r : HostReg) (v : Word) (s : State) : State :=
  match r with
  | .config => { s with config := configOfWord v }
  | .freq => { s with freq := v }
  | .fcint => { s with fcint := v }
  | .fcfrac => { s with fcfrac := v }
  | .dreg0 => { s with dreg0 := dregOfWord v }
  | .dreg1 => { s with dreg1 := dregOfWord v }
  | .buf .pin w => { s with mem := writeBufWord s.mem .pin w v }
  | .buf .txf w => { s with mem := writeBufWord s.mem .txf w v }
  | .buf .rxf w => { s with mem := writeBufWord s.mem .rxf w v }
  | .buf .apay _ => s
  | .opword | .status | .drvstate | .ackinfo => s

/-- The first lines of the launch rule: OPWORD <- v and the flags cleared (30_encoding.md R92). -/
def acceptWord (v : Word) (s : State) : State := clearLaunchFlags { s with opword := v }

/-- The state in which the launch part of a legal word runs: S.op <- v too (30_encoding.md R92). -/
def latchWord (v : Word) (s : State) : State := { acceptWord v s with op := v }

/-- Launch (30_encoding.md R92). -/
def launch (v : Word) (s : State) : Outcome :=
  match decode v with
  | .error _ => .next (raiseFatal .illegalOp (acceptWord v s))
  | .ok i => exec i (latchWord v s)

/-- The response and data of `MemRead(addr, 4)` (20_memory.md R73, R76). -/
def hostReadResp (addr : BitVec 8) (s : State) : HostResp :=
  match hostReg addr with
  | none => .read false 0#32
  | some r => .read true (readReg r s)

/-- `MemRead(addr, 4)`: no side effect but the response, in every FSM state (20_memory.md R76). -/
def hostRead (addr : BitVec 8) (s : State) : State := respond (hostReadResp addr s) s

/-- `MemWrite(addr, 4, v)`, its checks in the order of 60_exceptions.md R236 (20_memory.md R73 to R75). -/
def hostWrite (addr : BitVec 8) (v : Word) (s : State) : Outcome :=
  match hostReg addr with
  | none => .next (respond (.write false) s)
  | some r =>
    if r.readOnly then .next (respond (.write false) s)
    else if s.fatal then .next (respond (.write true) s)
    else if s.busy then .next (raiseFatal .busy (respond (.write true) s))
    else if r = .opword then launch v (respond (.write true) s)
    else .next (writeReg r v (respond (.write true) s))

/-- One host access. -/
def hostAccess (a : HostAccess) (s : State) : Outcome :=
  match a with
  | .read addr => .next (hostRead addr s)
  | .write addr v => hostWrite addr v s

end Sys2Proof.Machine
end

