-- ==== Sys2Proof/Machine/HostProgram.lean ====
section
/-! DEFINITION. Host programs (30_encoding.md R99, R100): the pseudo-instructions as moves of the agenda, the initialization program of
70_reset_and_hazards.md R265, and the host's verdict on the
echo test (70_reset_and_hazards.md R266). None of this is state or behaviour of the block. -/

namespace Sys2Proof.Machine

/-- `WR`: `MemWrite(offset, 4, v)` (R100). -/
def wr (offset : Nat) (v : Word) : Move := .host (.write (BitVec.ofNat 8 offset) v)

/-- `RD`: `MemRead(offset, 4)` (R100). -/
def rd (offset : Nat) : Move := .host (.read (BitVec.ofNat 8 offset))

/-- An operation line is `WR OPWORD, encoding` (R99, R100). The spec gives a line whose operand does not fit its field no encoding; `encode`
then takes it modulo the field's size (DESIGN CHOICE, log 19, unsafe). -/
def opLine (i : Instr) : Move := wr 0x00 (encode i)

/-- Four bytes as one host word, the first in the least significant place (20_memory.md R72). -/
def packWord (b0 b1 b2 b3 : Byte) : Word := b3 ++ b2 ++ b1 ++ b0

/-- The `WR` words that put bytes at a buffer's start, with 0 in the unused bytes of the last word (R100). -/
def loadBytes (offset : Nat) : List Byte → List Move
  | [] => []
  | [b0] => [wr offset (packWord b0 0#8 0#8 0#8)]
  | [b0, b1] => [wr offset (packWord b0 b1 0#8 0#8)]
  | [b0, b1, b2] => [wr offset (packWord b0 b1 b2 0#8)]
  | b0 :: b1 :: b2 :: b3 :: rest => wr offset (packWord b0 b1 b2 b3) :: loadBytes (offset + 4) rest

/-- `LDPIN` (R100). -/
def ldPin (bytes : List Byte) : List Move := loadBytes Buf.pin.base bytes
/-- `LDTXF` (R100). -/
def ldTxf (bytes : List Byte) : List Move := loadBytes Buf.txf.base bytes
/-- `LDRXF` (R100). -/
def ldRxf (bytes : List Byte) : List Move := loadBytes Buf.rxf.base bytes

/-- One turn of the loop WAITDONE: read STATUS; while BUSY is 1 let the FSM take a step and read again (R100; 20_memory.md R81;
log 13). -/
def waitDoneTurn (s : State) : State :=
  let t := hostRead 0x04#8 s
  if s.busy then { t with agenda := .fsm :: .waitDone :: t.agenda } else t

/-- The id of the network-standard command of an ordinal (30_encoding.md R103). -/
def stdCommand (p : Params) (ordinal : Fin 4) : Byte := p.stdBaseCmd + BitVec.ofNat 8 ordinal.val

/-- The delay the host keeps after a Wake-up command (70_reset_and_hazards.md R265 step 3, R271). DESIGN CHOICE (log 19, unsafe): the spec
puts no upper bound on T_WAKE_SETTLE_MS (00_scope.md R13), but MS has 16 bits (30_encoding.md R90); above 65535 this operation is not well
formed, and its word holds the value modulo 2^16. -/
def wakeSettle (p : Params) : Instr := .delay p.tWakeSettleMs

/-- What the host supplies for the initialization program, since no id, payload or class of these commands is given
(70_reset_and_hazards.md R265): each command's id and payload, and the class and APL of those with an acknowledgement. -/
structure InitChoice where
  wakeCmd : Byte
  wakePayload : List Byte
  echoCmd : Byte
  standard : Fin 4
  stdPayload : List Byte
  stdTc : TimeoutClass
  stdApl : Nat
  wdtCmd : Byte
  wdtPayload : List Byte
  wdtTc : TimeoutClass
  wdtApl : Nat
deriving DecidableEq, Repr

/-- The echo payload (70_reset_and_hazards.md R265 step 4). -/
def echoPayload : List Byte := [0x01#8, 0x02#8, 0x03#8, 0x04#8, 0x05#8]

/-- The six steps of the initialization program, each a list of moves (70_reset_and_hazards.md R265). A value of `p` or `c` that does not fit
the field of its operation word goes there modulo the field's size (DESIGN CHOICE, log 19, unsafe). -/
def initSteps (p : Params) (c : InitChoice) : List (List Move) :=
  [ [opLine (.waitrdy .init), .waitDone],
    ldPin c.wakePayload ++ [opLine (.xact c.wakeCmd c.wakePayload.length .notx true 0), .waitDone],
    [opLine (wakeSettle p), .waitDone],
    ldPin echoPayload ++ [opLine (.xact c.echoCmd 5 .notx false 5), .waitDone],
    ldPin c.stdPayload ++ [opLine (.xact (stdCommand p c.standard) c.stdPayload.length c.stdTc false c.stdApl), .waitDone],
    ldPin c.wdtPayload ++ [opLine (.xact c.wdtCmd c.wdtPayload.length c.wdtTc false c.wdtApl), .waitDone] ]

/-- The host's verdict on the echo test: APAY[j] = 0xFF − PIN[j] for j in 0..4 (70_reset_and_hazards.md R266); false is
SpiTestFail. -/
def echoVerdict (s : State) : Bool :=
  decide (s.apay 0 = 0xFF#8 - s.pin 0) && decide (s.apay 1 = 0xFF#8 - s.pin 1) && decide (s.apay 2 = 0xFF#8 - s.pin 2)
    && decide (s.apay 3 = 0xFF#8 - s.pin 3) && decide (s.apay 4 = 0xFF#8 - s.pin 4)

/-- Step `n` (from 0) of the initialization program has the outcome with which the host goes on: an operation ended OK, and for the echo
the verdict passes (70_reset_and_hazards.md R265, R266). -/
def initStepOk (n : Nat) (s : State) : Bool :=
  decide (s.st = .idle) && s.done && decide (s.result = .ok) && (decide (n ≠ 3) || echoVerdict s)

end Sys2Proof.Machine
end

