-- ==== Sys2Proof/Machine/Step.lean ====
section
/-! DEFINITION. One step of the machine: the next move of the agenda, or, when the agenda is empty, a step of the FSM. -/

namespace Sys2Proof.Machine

/-- One step. The head of the agenda moves (20_memory.md R80; log 4). With an empty agenda the FSM goes on; in IDLE it has no enabled
step and nothing changes (41_transport.md R140; log 7); in FAULT the block is stopped, which is the fault outcome (60_exceptions.md
R234; log 6). -/
def step (s : State) : Host.Outcome State Fault Refusal :=
  match s.agenda with
  | [] => if s.st = .fault then .fault (.stopped s.fcause) else .next (fsmStep s)
  | .fsm :: rest => .next (fsmStep { s with agenda := rest })
  | .host a :: rest => hostAccess a { s with agenda := rest }
  | .waitDone :: rest => .next (waitDoneTurn { s with agenda := rest })
  | .rst :: rest => .next (blockReset { s with agenda := rest })

/-- The host's next access is a write of the operation word to OPWORD (30_encoding.md R92): that is where the block finds its next
operation, for it fetches nothing (20_memory.md R83; log 5). Nothing else changes. -/
def State.withFetchWord (s : State) (nbits w : Nat) : State :=
  { s with agenda := .host (.write 0x00#8 (BitVec.ofNat 32 (w % 2 ^ nbits))) :: s.agenda }

end Sys2Proof.Machine
end

