-- ==== Sys2Proof/Safety.lean ====
section
/-! DEFINITION. What a state of the block keeps along every run, in the terms the statements use: the invariant `State.Inv`, the end of
an operation, and counts over the wire trace. -/

namespace Sys2Proof.Machine

/-! ### Counts over the wire trace (00_scope.md R25) -/

/-- Deselect events so far. -/
def State.deselects (s : State) : Nat := s.trace.count .deselect
/-- Select events so far. -/
def State.selects (s : State) : Nat := s.trace.count .select
/-- Tick events so far: the modelled time (70_reset_and_hazards.md R280). -/
def State.ticks (s : State) : Nat := s.trace.count .tick

/-! ### Ends -/

/-- The block accepts the next operation: neither BUSY nor FATAL (20_memory.md R75). -/
def State.ready (s : State) : Bool := decide (s.st = .idle) && !s.fatal

/-- An operation has ended (60_exceptions.md R255). -/
def State.ended (s : State) : Bool := decide (s.st = .idle) && s.done

/-- A word launched on a state (30_encoding.md R92) and `n` FSM steps with no host access between them. -/
def afterLaunch (v : Word) (n : Nat) (s : State) : State :=
  match launch v s with
  | .next t => fsmRun n t
  | .fault _ => s
  | .refused _ => s

/-! ### The send and the receive phase -/

/-- States 1 to 4 (41_transport.md R142). -/
def FsmState.sending : FsmState → Bool
  | .sWaitIdle | .sWaitAccept | .sXfer | .sWaitDone => true
  | .idle | .rWaitReady | .rXferLen | .rXfer | .rWaitDone | .wWaitHigh | .dly | .smp | .fault => false

/-- States 5 to 8 (41_transport.md R142). -/
def FsmState.receiving : FsmState → Bool
  | .rWaitReady | .rXferLen | .rXfer | .rWaitDone => true
  | .idle | .sWaitIdle | .sWaitAccept | .sXfer | .sWaitDone | .wWaitHigh | .dly | .smp | .fault => false

/-- The FSM steps in which an operation must end after its launch (41_transport.md R159): a send phase at most 3·N_NOTX + 14, a receive
phase at most N(TC) + N_NOTX + 26, XACT both; WAITRDY at most N(TC), ISRDY 1, DELAY D(MS); the others end in their launch step. -/
def opBound (p : Params) : Instr → Nat
  | .send _ => 3 * pollBound p .notx + 14
  | .sendnb _ _ => 3 * pollBound p .notx + 14
  | .recv _ tc => pollBound p tc + pollBound p .notx + 26
  | .readack _ tc => pollBound p tc + pollBound p .notx + 26
  | .xact _ _ tc _ _ => (3 * pollBound p .notx + 14) + (pollBound p tc + pollBound p .notx + 26)
  | .waitrdy tc => pollBound p tc
  | .isrdy => 1
  | .delay ms => delayTicks p ms
  | .pack _ _ => 0
  | .parse _ => 0
  | .hz2reg => 0
  | .reg2hz => 0
  | .store => 0
  | .restore => 0

/-- The bits of an operation word that its operation reads: OP and the fields of 30_encoding.md R94. -/
def readMask : Instr → Word
  | .pack _ _ => 0x0000FFFF#32
  | .parse _ => 0x1F00000F#32
  | .send _ => 0x000000FF#32
  | .recv _ _ => 0x1F03000F#32
  | .waitrdy _ => 0x0003000F#32
  | .isrdy => 0x0000000F#32
  | .delay _ => 0x00FFFF0F#32
  | .xact _ _ _ _ _ => 0x00FFFFFF#32
  | .sendnb _ _ => 0x0000FFFF#32
  | .readack _ _ => 0x1F03000F#32
  | .hz2reg => 0x0000000F#32
  | .reg2hz => 0x0000000F#32
  | .store => 0x0000000F#32
  | .restore => 0x0000000F#32

/-- The bits of a host word that a write to an offset stores: CONFIG its two fields, DREG0 and DREG1 their 16 bits, the last words of TXF
and RXF their two bytes that are not pads (10_state.md R36, R39, R40). -/
def writeMask (addr : BitVec 8) : Word :=
  if addr = 0x08#8 then 0x00000003#32
  else if addr = 0x20#8 ∨ addr = 0x24#8 ∨ addr = 0x68#8 ∨ addr = 0x88#8 then 0x0000FFFF#32
  else 0xFFFFFFFF#32

/-- The reserved bits and pad bytes of a host word, which read 0 (10_state.md R32, R36 to R40). -/
def reservedMask (addr : BitVec 8) : Word :=
  if addr = 0x04#8 then 0xFFF0E000#32
  else if addr = 0x08#8 then 0xFFFFFFFC#32
  else if addr = 0x0C#8 then 0xFFFE0000#32
  else if addr = 0x10#8 then 0xE0000000#32
  else if addr = 0x20#8 ∨ addr = 0x24#8 ∨ addr = 0x68#8 ∨ addr = 0x88#8 then 0xFFFF0000#32
  else if addr = 0xA4#8 then 0xFF000000#32
  else 0x00000000#32

/-! ### The invariant -/

/-- S.cap lies in `lo`..26 (10_state.md R45; 30_encoding.md R94). -/
def State.capFrom (s : State) (lo : Nat) : Bool := decide (lo ≤ s.cap) && decide (s.cap ≤ 26)

/-- The operation in flight has a send phase, and XACT with an acknowledgement already has its receive capacity (41_transport.md R144,
42_command_engine.md R180). -/
def State.sendOp (s : State) : Bool :=
  decide (s.opCode = 0x3#4) || decide (s.opCode = 0x9#4) || (decide (s.opCode = 0x8#4) && (s.opNa || s.capFrom 3))

/-- The operation in flight has a receive phase and a legal capacity (41_transport.md R150, 42_command_engine.md R180, R190). -/
def State.recvOp (s : State) : Bool :=
  (decide (s.opCode = 0x4#4) && s.capFrom 1) || (decide (s.opCode = 0xA#4) && s.capFrom 3)
    || (decide (s.opCode = 0x8#4) && !s.opNa && s.capFrom 3)

/-- S.len lies in 1..14 (10_state.md R45). -/
def State.lenOk (s : State) : Bool := decide (1 ≤ s.len) && decide (s.len ≤ 14)

/-- What each FSM state promises of chip-select, the poll counter, the byte index and the operation in flight (10_state.md R45, R46, R47;
41_transport.md R142, R144, R146, R158). -/
def State.stOk (s : State) : Bool :=
  match s.st with
  | .idle => s.csN
  | .sWaitIdle => s.csN && s.sendOp && s.lenOk && decide (s.k < s.nNotx)
  | .sWaitAccept => !s.csN && s.sendOp && s.lenOk && decide (s.k < s.nNotx)
  | .sXfer => !s.csN && s.sendOp && s.lenOk && decide (s.i < s.len)
  | .sWaitDone => !s.csN && s.sendOp && s.lenOk && decide (s.k < s.nNotx)
  | .rWaitReady => s.csN && s.recvOp && decide (s.k < pollBound s.params s.opTc)
  | .rXferLen => !s.csN && s.recvOp
  | .rXfer =>
    !s.csN && s.recvOp && decide (1 ≤ s.i) && decide (s.i < s.lenByte.toNat) && decide (s.lenByte.toNat ≤ s.cap)
      && decide (s.rxf 0 = s.lenByte)
  | .rWaitDone =>
    !s.csN && s.recvOp && decide (1 ≤ s.lenByte.toNat) && decide (s.lenByte.toNat ≤ s.cap) && decide (s.rxf 0 = s.lenByte)
      && decide (s.k < s.nNotx)
  | .wWaitHigh => s.csN && decide (s.opCode = 0x5#4) && decide (s.k < pollBound s.params s.opTc)
  | .dly => s.csN && decide (s.opCode = 0x7#4) && decide (1 ≤ s.d)
  | .smp => s.csN && decide (s.opCode = 0x6#4)
  | .fault => s.csN

/-- The flags agree with the FSM state (10_state.md R34, R48; 60_exceptions.md R233): FATAL means FAULT; FCAUSE names a cause and RESULT is
FATAL exactly when FATAL is set; while BUSY, the launch's cleared flags stand and OPWORD is the latched word. -/
def State.flagsOk (s : State) : Bool :=
  decide (s.fatal = decide (s.st = .fault))
    && decide ((s.result = .fatal) ↔ (s.fatal = true))
    && decide ((s.fcause = .none) ↔ (s.fatal = false))
    && (!s.fatal || s.done)
    && (!s.busy || (!s.done && decide (s.result = .ok) && !s.anomaly && decide (s.opword = s.op)))

/-- ACKINFO is still at reset or holds a parsed header: 3 ≤ ALEN ≤ 26 and APLEN = ALEN − 3 (10_state.md R38). -/
def State.ackOk (s : State) : Bool :=
  decide (s.ackinfo = ⟨0#5, 0#8, 0#8, 0#8⟩)
    || (decide (3 ≤ s.ackinfo.alen.toNat) && decide (s.ackinfo.alen.toNat ≤ 26)
      && decide (s.ackinfo.aplen.toNat + 3 = s.ackinfo.alen.toNat))

/-- The control invariant. -/
def State.Inv (s : State) : Bool := s.stOk && s.flagsOk && s.ackOk

/-- A host byte offset that holds a buffer byte (10_state.md R30, R40). -/
def bufferOffset (x : Nat) : Bool :=
  (decide (0x40 ≤ x) && decide (x < 0x4C)) || (decide (0x50 ≤ x) && decide (x < 0x6A))
    || (decide (0x70 ≤ x) && decide (x < 0x8A)) || (decide (0x90 ≤ x) && decide (x < 0xA7))

/-- The storage has its canonical form and lists nothing but buffer bytes: pads and unmapped offsets hold nothing (10_state.md R40). -/
def State.memOk (s : State) : Bool := Memory.wf s.mem && s.mem.all (fun c => bufferOffset c.1)

end Sys2Proof.Machine
end

