-- ==== Sys2Proof/Certificates/Slice0/Obligations.lean ====
section
/-! DEFINITION. The statements for the provers. Each docstring names the rule of spec/ it rests on; "the model's choice" names a log entry. -/

open Sys2Proof Sys2Proof.Machine

/-! ### Encoding -/

/-- 30_encoding.md R90, R98, R99: decoding the operation word of a well-formed operation gives the operation back. -/
def Obligations.DecodeOfEncodeIsTheOperation : Prop :=
  ∀ i : Instr, i.wellFormed = true → decode (encode i) = .ok i

/-- 30_encoding.md R98: a word is illegal exactly when bits [31:29] are not 0 or OP is 0x0 or 0xF; otherwise it is the operation OP names,
with its fields at the places of R90, written here as arithmetic on the word's value. -/
def Obligations.DecodeFollowsTheOpcodeMap : Prop :=
  ∀ w : Word,
    (w.toNat / 2 ^ 29 ≠ 0 ∨ w.toNat % 16 = 0 ∨ w.toNat % 16 = 15 → ∃ e, decode w = .error e) ∧
    (w.toNat / 2 ^ 29 = 0 →
      (w.toNat % 16 = 1 → decode w = .ok (.pack (BitVec.ofNat 8 (w.toNat / 2 ^ 8)) (w.toNat / 2 ^ 4 % 16))) ∧
      (w.toNat % 16 = 2 → decode w = .ok (.parse (w.toNat / 2 ^ 24 % 32))) ∧
      (w.toNat % 16 = 3 → decode w = .ok (.send (w.toNat / 2 ^ 4 % 16))) ∧
      (w.toNat % 16 = 6 → decode w = .ok .isrdy) ∧
      (w.toNat % 16 = 7 → decode w = .ok (.delay (w.toNat / 2 ^ 8 % 2 ^ 16))) ∧
      (w.toNat % 16 = 9 → decode w = .ok (.sendnb (BitVec.ofNat 8 (w.toNat / 2 ^ 8)) (w.toNat / 2 ^ 4 % 16))) ∧
      (w.toNat % 16 = 11 → decode w = .ok .hz2reg) ∧
      (w.toNat % 16 = 12 → decode w = .ok .reg2hz) ∧
      (w.toNat % 16 = 13 → decode w = .ok .store) ∧
      (w.toNat % 16 = 14 → decode w = .ok .restore) ∧
      ∀ tc : TimeoutClass, (fieldOfTc tc).toNat = w.toNat / 2 ^ 16 % 4 →
        (w.toNat % 16 = 4 → decode w = .ok (.recv (w.toNat / 2 ^ 24 % 32) tc)) ∧
        (w.toNat % 16 = 5 → decode w = .ok (.waitrdy tc)) ∧
        (w.toNat % 16 = 8 → decode w = .ok (.xact (BitVec.ofNat 8 (w.toNat / 2 ^ 8)) (w.toNat / 2 ^ 4 % 16) tc
          (decide (w.toNat / 2 ^ 18 % 2 = 1)) (w.toNat / 2 ^ 19 % 32))) ∧
        (w.toNat % 16 = 10 → decode w = .ok (.readack (w.toNat / 2 ^ 24 % 32) tc)))

/-- 30_encoding.md R90, R94: encoding what a legal word decodes to keeps every bit the operation reads and clears the ignored ones, so no
read bit is dropped; and what decodes is well formed. -/
def Obligations.EncodeKeepsEveryReadBit : Prop :=
  ∀ (w : Word) (i : Instr), decode w = .ok i → i.wellFormed = true ∧ encode i = w &&& readMask i

/-- 30_encoding.md R99: the example words of the assembler table decode to the operations they stand for. -/
def Obligations.SpecExampleWordsDecode : Prop :=
  decode 0x00002151#32 = .ok (.pack 0x21#8 5) ∧
  decode 0x1A020004#32 = .ok (.recv 26 .txrx) ∧
  decode 0x00006407#32 = .ok (.delay 100) ∧
  decode 0x00282158#32 = .ok (.xact 0x21#8 5 .notx false 5) ∧
  decode 0x00041008#32 = .ok (.xact 0x10#8 0 .notx true 0) ∧
  decode 0x1A01000A#32 = .ok (.readack 26 .tx)

/-! ### Launch and step -/

/-- 30_encoding.md R92, 20_memory.md R75: when the host's next access writes a legal word to OPWORD of a block that is neither BUSY nor
FATAL, the step is the operation's launch part, run on the state with OPWORD and S.op holding the word, DONE, RESULT and ANOMALY cleared,
and the response OK given. The move leaves the agenda (the model's own field, log 4). -/
def Obligations.StepRunsTheDecodedOperation : Prop :=
  ∀ (s : State) (v : Word) (i : Instr) (rest : List Move),
    s.agenda = .host (.write 0x00#8 v) :: rest → s.fatal = false → s.busy = false → decode v = .ok i →
    step s = exec i { s with
      agenda := rest, resps := s.resps ++ [.write true], opword := v, op := v, done := false, result := .ok, anomaly := false }

/-- 60_exceptions.md R231: a word with OP 0x0 or 0xF or with bits [31:29] not 0 raises Fatal(ILLEGAL_OP) in its launch step, and no
register other than OPWORD and STATUS changes. -/
def Obligations.IllegalWordEntersFault : Prop :=
  ∀ (s : State) (v : Word) (rest : List Move),
    s.agenda = .host (.write 0x00#8 v) :: rest → s.fatal = false → s.st = .idle →
    (v.toNat / 2 ^ 29 ≠ 0 ∨ v.toNat % 16 = 0 ∨ v.toNat % 16 = 15) →
    step s = .next { s with
      agenda := rest, resps := s.resps ++ [.write true], opword := v, anomaly := false, fatal := true, fcause := .illegalOp,
      result := .fatal, done := true, st := .fault }

/-- 30_encoding.md R96 (every word that decodes is an operation that raises a field Fatal or runs): no launch part stops the machine. -/
def Obligations.EveryOperationHasANextState : Prop :=
  ∀ (i : Instr) (s : State), ∃ t, exec i s = .next t

/-- 60_exceptions.md R234: the machine stops only in FAULT with nothing left to do (the model's choice of when, log 6), and nothing is
refused. -/
def Obligations.OnlyAFinishedFaultStops : Prop :=
  ∀ s : State, (∀ r, step s = .fault r → s.agenda = [] ∧ s.st = .fault ∧ r = .stopped s.fcause) ∧ ∀ r, step s ≠ .refused r

/-! ### The host port -/

/-- 20_memory.md R74. -/
def Obligations.ReadOnlyWritesAnswerErr : Prop :=
  ∀ (s : State) (addr : BitVec 8) (v : Word),
    addr ∈ [0x04#8, 0x0C#8, 0x10#8, 0x90#8, 0x94#8, 0x98#8, 0x9C#8, 0xA0#8, 0xA4#8] →
    hostWrite addr v s = .next { s with resps := s.resps ++ [.write false] }

/-- 20_memory.md R73. -/
def Obligations.UnmappedAccessesAnswerErr : Prop :=
  ∀ (s : State) (addr : BitVec 8),
    (addr.toNat % 4 ≠ 0 ∨ (0x28 ≤ addr.toNat ∧ addr.toNat ≤ 0x3F) ∨ (0x4C ≤ addr.toNat ∧ addr.toNat ≤ 0x4F) ∨
      (0x6C ≤ addr.toNat ∧ addr.toNat ≤ 0x6F) ∨ (0x8C ≤ addr.toNat ∧ addr.toNat ≤ 0x8F) ∨ 0xA8 ≤ addr.toNat) →
    hostRead addr s = { s with resps := s.resps ++ [.read false 0#32] } ∧
    ∀ v, hostWrite addr v s = .next { s with resps := s.resps ++ [.write false] }

/-- 20_memory.md R75, 60_exceptions.md R230, R233: a write to a writable register while BUSY raises Fatal(BUSY); the value is discarded,
OPWORD and S.op keep the running operation's word, and an open phase releases chip-select once. -/
def Obligations.WriteWhileBusyIsFatal : Prop :=
  ∀ (s : State) (addr : BitVec 8) (v : Word) (r : HostReg),
    hostReg addr = some r → r.readOnly = false → s.fatal = false → s.busy = true →
    hostWrite addr v s = .next { s with
      resps := s.resps ++ [.write true], fatal := true, fcause := .busy, result := .fatal, done := true, st := .fault,
      csN := if s.st.sending || s.st.receiving then true else s.csN,
      trace := if s.st.sending || s.st.receiving then s.trace ++ [.deselect] else s.trace }

/-- 20_memory.md R75 step 3, R72, R76: after a write to a writable register other than OPWORD, that offset reads the written word with its
reserved bits and pad bytes 0, every other offset reads as before, and nothing but the data registers and buffers changes. -/
def Obligations.WrittenRegisterReadsBack : Prop :=
  ∀ (s : State) (addr : BitVec 8) (v : Word) (r : HostReg),
    hostReg addr = some r → r.readOnly = false → r ≠ .opword → s.fatal = false → s.busy = false →
    ∃ t, hostWrite addr v s = .next t ∧
      hostReadResp addr t = .read true (v &&& writeMask addr) ∧
      (∀ a, a ≠ addr → hostReadResp a t = hostReadResp a s) ∧
      t = { s with config := t.config, freq := t.freq, fcint := t.fcint, fcfrac := t.fcfrac, dreg0 := t.dreg0, dreg1 := t.dreg1,
                   mem := t.mem, resps := s.resps ++ [.write true] }

/-- 20_memory.md R76, 10_state.md R31, R36 to R39: a host read is one step that changes nothing but the responses (and the agenda it leaves);
a mapped register answers OK with its reserved bits and pad bytes 0, and its word is its current value, the sum of its fields at their places.
(STATUS and the buffers have their words in statements of their own.) -/
def Obligations.ReadsHaveNoSideEffect : Prop :=
  ∀ (s : State) (addr : BitVec 8),
    (∀ rest, s.agenda = .host (.read addr) :: rest →
      step s = .next { s with agenda := rest, resps := s.resps ++ [hostReadResp addr s] }) ∧
    (∀ r, hostReg addr = some r → ∃ d, hostReadResp addr s = .read true d ∧ d &&& reservedMask addr = 0#32) ∧
    hostReadResp 0x00#8 s = .read true s.opword ∧
    (∃ d, hostReadResp 0x08#8 s = .read true d ∧
      d.toNat = (if s.config.layout = .a then 1 else 0) + 2 * (if s.config.capMode = .expected then 1 else 0)) ∧
    (∃ d, hostReadResp 0x0C#8 s = .read true d ∧
      d.toNat = s.drvstate.devState.toNat + 2 ^ 8 * s.drvstate.devErr.toNat + 2 ^ 16 * s.drvstate.valid.toNat) ∧
    (∃ d, hostReadResp 0x10#8 s = .read true d ∧
      d.toNat = s.ackinfo.alen.toNat + 2 ^ 8 * s.ackinfo.aerr.toNat + 2 ^ 16 * s.ackinfo.astate.toNat
        + 2 ^ 24 * s.ackinfo.aplen.toNat) ∧
    hostReadResp 0x14#8 s = .read true s.freq ∧ hostReadResp 0x18#8 s = .read true s.fcint ∧
    hostReadResp 0x1C#8 s = .read true s.fcfrac ∧
    (∃ d, hostReadResp 0x20#8 s = .read true d ∧ d.toNat = s.dreg0.toNat) ∧
    ∃ d, hostReadResp 0x24#8 s = .read true d ∧ d.toNat = s.dreg1.toNat

/-- 10_state.md R32, R46, R33, R35: the STATUS word is the sum of its fields at their places, with the codes of STATE, RESULT and FCAUSE written
out, and BUSY is STATE ∉ {IDLE, FAULT}. -/
def Obligations.StatusWordHoldsItsFields : Prop :=
  ∀ s : State, ∃ d, hostReadResp 0x04#8 s = .read true d ∧
    d.toNat =
      (match s.st with
        | .idle => 0 | .sWaitIdle => 1 | .sWaitAccept => 2 | .sXfer => 3 | .sWaitDone => 4 | .rWaitReady => 5 | .rXferLen => 6
        | .rXfer => 7 | .rWaitDone => 8 | .wWaitHigh => 9 | .dly => 10 | .smp => 11 | .fault => 15)
      + 2 ^ 4 * (if s.st = .idle ∨ s.st = .fault then 0 else 1) + 2 ^ 5 * s.done.toNat + 2 ^ 6 * s.fatal.toNat
      + 2 ^ 7 * s.csN.toNat
      + 2 ^ 8 * (match s.result with
        | .ok => 0 | .timeout => 1 | .acklen => 2 | .ackerr => 3 | .buserr => 4 | .fatal => 5)
      + 2 ^ 11 * s.anomaly.toNat + 2 ^ 12 * s.rdy.toNat
      + 2 ^ 16 * (match s.fcause with
        | .none => 0 | .busy => 1 | .illegalOp => 2 | .badCmd => 3 | .badLen => 4 | .badCap => 5 | .freqRange => 6 | .regRange => 7
        | .layoutUnsupported => 8)

/-- 20_memory.md R72: the word at base + 4w holds bytes 4w to 4w + 3 with byte 4w least significant, pad bytes read 0, and a write sets the
bytes the same way and changes no other byte. -/
def Obligations.BufferWordsAreLittleEndian : Prop :=
  ∀ (s : State) (b : Buf) (w : Nat), 4 * w < b.size →
    (∃ d : Word, hostReadResp (BitVec.ofNat 8 (b.base + 4 * w)) s = .read true d ∧
      ∀ j, j < 4 → d.extractLsb' (8 * j) 8 = if 4 * w + j < b.size then Memory.read s.mem (b.base + (4 * w + j)) else 0#8) ∧
    (b ≠ .apay → s.fatal = false → s.busy = false → ∀ v : Word,
      ∃ t, hostWrite (BitVec.ofNat 8 (b.base + 4 * w)) v s = .next t ∧
        (∀ j, j < 4 → 4 * w + j < b.size → Memory.read t.mem (b.base + (4 * w + j)) = v.extractLsb' (8 * j) 8) ∧
        ∀ x, ¬ (b.base + 4 * w ≤ x ∧ x < b.base + 4 * w + 4 ∧ x < b.base + b.size) → Memory.read t.mem x = Memory.read s.mem x)

/-! ### Fatal, FAULT and reset -/

/-- 60_exceptions.md R233. -/
def Obligations.FatalEntryRecordsItsCause : Prop :=
  ∀ (c : FatalCause) (s : State),
    (s.st ∈ [.sWaitIdle, .sWaitAccept, .sXfer, .sWaitDone, .rWaitReady, .rXferLen, .rXfer, .rWaitDone] →
      raiseFatal c s = { s with
        csN := true, trace := s.trace ++ [.deselect], fatal := true, fcause := c, result := .fatal, done := true, st := .fault }) ∧
    (s.st ∉ [.sWaitIdle, .sWaitAccept, .sXfer, .sWaitDone, .rWaitReady, .rXferLen, .rXfer, .rWaitDone] →
      raiseFatal c s = { s with fatal := true, fcause := c, result := .fatal, done := true, st := .fault })

/-- 60_exceptions.md R234, R235: in FAULT the FSM does nothing, a write to a writable register is ignored with response OK, no access or
loop changes the block, and reset alone leaves. That an empty agenda answers the fault outcome is the model's choice (log 6). -/
def Obligations.FaultIsStickyUntilReset : Prop :=
  ∀ s : State, s.st = .fault → s.fatal = true →
    fsmStep s = s ∧
    (∀ addr v r, hostReg addr = some r → r.readOnly = false →
      hostWrite addr v s = .next { s with resps := s.resps ++ [.write true] }) ∧
    (s.agenda = [] → step s = .fault (.stopped s.fcause)) ∧
    (∀ m rest, s.agenda = m :: rest → m ≠ .rst → ∃ rs, step s = .next { s with agenda := rest, resps := s.resps ++ rs }) ∧
    (∀ rest, s.agenda = .rst :: rest → ∃ t, step s = .next t ∧ t.st = .idle ∧ t.fatal = false ∧ t.fcause = .none)

/-- 30_encoding.md R94, 60_exceptions.md R230, R236: the field checks of every operation that has one, in their order; the first that fails
raises its Fatal before any other effect. -/
def Obligations.LaunchChecksFailInOrder : Prop :=
  ∀ s : State,
    (∀ cmd n, ¬ (s.params.cmdFirst.toNat ≤ cmd.toNat ∧ cmd.toNat ≤ s.params.cmdLast.toNat) →
      exec (.pack cmd n) s = .next (raiseFatal .badCmd s) ∧ exec (.sendnb cmd n) s = .next (raiseFatal .badCmd s) ∧
      ∀ tc na apl, exec (.xact cmd n tc na apl) s = .next (raiseFatal .badCmd s)) ∧
    (∀ cmd n, s.params.cmdFirst.toNat ≤ cmd.toNat → cmd.toNat ≤ s.params.cmdLast.toNat → 12 < n →
      exec (.pack cmd n) s = .next (raiseFatal .badLen s) ∧ exec (.sendnb cmd n) s = .next (raiseFatal .badLen s) ∧
      ∀ tc na apl, exec (.xact cmd n tc na apl) s = .next (raiseFatal .badLen s)) ∧
    (∀ cmd n tc apl, s.params.cmdFirst.toNat ≤ cmd.toNat → cmd.toNat ≤ s.params.cmdLast.toNat → n ≤ 12 → 23 < apl →
      exec (.xact cmd n tc false apl) s = .next (raiseFatal .badLen s)) ∧
    (∀ cap, 23 < cap → exec (.parse cap) s = .next (raiseFatal .badCap s)) ∧
    (∀ n, n = 0 ∨ 14 < n → exec (.send n) s = .next (raiseFatal .badLen s)) ∧
    (∀ cap tc, cap = 0 ∨ 26 < cap → exec (.recv cap tc) s = .next (raiseFatal .badCap s)) ∧
    (∀ cap tc, cap < 3 ∨ 26 < cap → exec (.readack cap tc) s = .next (raiseFatal .badCap s)) ∧
    (s.freq.toNat < 775000000 ∨ 1100000000 < s.freq.toNat → exec .hz2reg s = .next (raiseFatal .freqRange s)) ∧
    (63 < s.fcint.toNat ∨ 2 ^ 19 - 1 < s.fcfrac.toNat → exec .reg2hz s = .next (raiseFatal .regRange s)) ∧
    (s.config.layout = .a → s.params.hasLayoutA = false →
      exec .store s = .next (raiseFatal .layoutUnsupported s) ∧ exec .restore s = .next (raiseFatal .layoutUnsupported s)) ∧
    (s.config.layout = .a → s.params.hasLayoutA = true → 63 < s.fcint.toNat ∨ 2 ^ 19 - 1 < s.fcfrac.toNat →
      exec .store s = .next (raiseFatal .regRange s)) ∧
    (s.config.layout = .b → 255 < s.fcint.toNat ∨ 2 ^ 24 - 1 < s.fcfrac.toNat →
      exec .store s = .next (raiseFatal .regRange s))

/-- 70_reset_and_hazards.md R260, 10_state.md R50: the rst input gives every register, buffer and internal state its reset value from any
state, FAULT and a running operation included, with the trace empty. The parameters stay, and the host's and the chip's own lists are not
the block's to reset (the model's choice, log 12). -/
def Obligations.ResetInputGivesResetValues : Prop :=
  ∀ (s : State) (rest : List Move), s.agenda = .rst :: rest →
    step s = .next { State.reset with
      params := s.params, agenda := rest, busyIn := s.busyIn, xchgIn := s.xchgIn, draws := s.draws, resps := s.resps }

/-- 10_state.md R45, R50: what reset leaves in every register, flag, buffer byte and internal state. -/
def Obligations.ResetStateHasTheSpecsValues : Prop :=
  State.reset.opword = 0#32 ∧ State.reset.st = .idle ∧ State.reset.busy = false ∧ State.reset.done = false ∧
  State.reset.fatal = false ∧ State.reset.csN = true ∧ State.reset.result = .ok ∧ State.reset.anomaly = false ∧
  State.reset.rdy = false ∧ State.reset.fcause = .none ∧ State.reset.config = ⟨.b, .full⟩ ∧
  State.reset.drvstate = ⟨false, 0#8, 0#8⟩ ∧ State.reset.ackinfo = ⟨0#5, 0#8, 0#8, 0#8⟩ ∧ State.reset.freq = 0#32 ∧
  State.reset.fcint = 0#32 ∧ State.reset.fcfrac = 0#32 ∧ State.reset.dreg0 = 0#16 ∧ State.reset.dreg1 = 0#16 ∧
  (∀ x, Memory.read State.reset.mem x = 0#8) ∧ State.reset.op = 0#32 ∧ State.reset.k = 0 ∧ State.reset.i = 0 ∧
  State.reset.len = 0 ∧ State.reset.cap = 0 ∧ State.reset.lenByte = 0#8 ∧ State.reset.d = 0 ∧ State.reset.trace = [] ∧
  statusWord State.reset = 0x00000080#32

/-! ### Frame codec -/

/-- 40_frame_codec.md R120, R121: PACK with a legal command id and N ≤ 12 puts the frame into TXF and ends OK; no register but DONE and RESULT
changes (STATE is set to IDLE), and no byte outside TXF[0..N+1]. -/
def Obligations.PackPutsTheFrameIntoTxf : Prop :=
  ∀ (s : State) (cmd : Byte) (n : Nat),
    s.params.cmdFirst.toNat ≤ cmd.toNat → cmd.toNat ≤ s.params.cmdLast.toNat → n ≤ 12 →
    ∃ t, exec (.pack cmd n) s = .next t ∧
      t = { s with mem := t.mem, st := .idle, done := true, result := .ok } ∧
      (t.txf 0).toNat = n + 2 ∧ t.txf 1 = cmd ∧ (∀ j, j < n → t.txf (2 + j) = s.pin j) ∧
      ∀ x, ¬ (0x50 ≤ x ∧ x < 0x50 + (n + 2)) → Memory.read t.mem x = Memory.read s.mem x

/-- 40_frame_codec.md R124, R125: PARSE of an accepted length copies the header to ACKINFO and the payload to APAY and ends OK; DRVSTATE,
ANOMALY and every other register stay, and no byte outside APAY[0..L-4] changes. -/
def Obligations.ParseCopiesHeaderAndPayload : Prop :=
  ∀ (s : State) (cap : Nat), cap ≤ 23 → 3 ≤ (s.rxf 0).toNat → (s.rxf 0).toNat - 3 ≤ cap →
    ∃ t, exec (.parse cap) s = .next t ∧
      t = { s with mem := t.mem, ackinfo := t.ackinfo, st := .idle, done := true, result := .ok } ∧
      t.ackinfo.alen = s.rxf 0 ∧ t.ackinfo.aerr = s.rxf 1 ∧ t.ackinfo.astate = s.rxf 2 ∧
      t.ackinfo.aplen.toNat + 3 = (s.rxf 0).toNat ∧
      (∀ j, j < (s.rxf 0).toNat - 3 → t.apay j = s.rxf (3 + j)) ∧
      ∀ x, ¬ (0x90 ≤ x ∧ x < 0x90 + ((s.rxf 0).toNat - 3)) → Memory.read t.mem x = Memory.read s.mem x

/-- 40_frame_codec.md R126: ParseAck is ACKLEN exactly on L < 3 and L − 3 > paycap; then PARSE ends with ACKLEN and nothing else changes. -/
def Obligations.ParseRejectsExactlyBadLengths : Prop :=
  ∀ (s : State) (cap : Nat), cap ≤ 23 →
    (parseAck cap s = none ↔ (s.rxf 0).toNat < 3 ∨ cap < (s.rxf 0).toNat - 3) ∧
    ((s.rxf 0).toNat < 3 ∨ cap < (s.rxf 0).toNat - 3 →
      exec (.parse cap) s = .next { s with st := .idle, done := true, result := .acklen })

/-! ### Launch of the multi-step operations -/

/-- 41_transport.md R145, R160, R170, R175, 00_scope.md R17: the launch parts of SEND, WAITRDY, ISRDY and DELAY, and their frames. -/
def Obligations.LaunchOfSendWaitrdyIsrdyDelay : Prop :=
  ∀ s : State,
    (∀ n, 1 ≤ n → n ≤ 14 → exec (.send n) s = .next { s with len := n, k := 0, st := .sWaitIdle }) ∧
    (∀ tc, exec (.waitrdy tc) s = .next { s with k := 0, st := .wWaitHigh }) ∧
    exec .isrdy s = .next { s with rdy := false, st := .smp } ∧
    (∀ ms, (ms * 1000 + (s.params.pollUs - 1)) / s.params.pollUs = 0 →
      exec (.delay ms) s = .next { s with st := .idle, done := true, result := .ok }) ∧
    (∀ ms, (ms * 1000 + (s.params.pollUs - 1)) / s.params.pollUs ≠ 0 →
      exec (.delay ms) s = .next { s with d := (ms * 1000 + (s.params.pollUs - 1)) / s.params.pollUs, st := .dly })

/-- 41_transport.md R147, R150, 42_command_engine.md R190: RECV with 1 ≤ CAP ≤ 26 and READACK with 3 ≤ CAP ≤ 26 fill TXF[0..CAP-1] with 0xFF,
leave every other byte alone, and open the receive phase. -/
def Obligations.LaunchOfRecvAndReadackFillsTxf : Prop :=
  ∀ (s : State) (i : Instr) (cap : Nat) (tc : TimeoutClass),
    (i = .recv cap tc ∧ 1 ≤ cap ∧ cap ≤ 26) ∨ (i = .readack cap tc ∧ 3 ≤ cap ∧ cap ≤ 26) →
    ∃ t, exec i s = .next t ∧
      t = { s with mem := t.mem, cap := cap, k := 0, st := .rWaitReady } ∧
      (∀ j, j < cap → t.txf j = 0xFF#8) ∧
      ∀ x, ¬ (0x50 ≤ x ∧ x < 0x50 + cap) → Memory.read t.mem x = Memory.read s.mem x

/-- 42_command_engine.md R180, R182, R188: XACT and SENDNB with legal fields put the frame into TXF as PACK does and open the send phase with
length N + 2; XACT with an acknowledgement also sets S.cap by CAPMODE; SENDNB is XACT with NA = 1. -/
def Obligations.LaunchOfXactAndSendnbPacksTheFrame : Prop :=
  ∀ (s : State) (cmd : Byte) (n : Nat) (tc : TimeoutClass) (na : Bool) (apl : Nat),
    s.params.cmdFirst.toNat ≤ cmd.toNat → cmd.toNat ≤ s.params.cmdLast.toNat → n ≤ 12 → (na = false → apl ≤ 23) →
    exec (.sendnb cmd n) s = exec (.xact cmd n tc true apl) s ∧
    ∃ t, exec (.xact cmd n tc na apl) s = .next t ∧
      t = { s with
        mem := t.mem, len := n + 2, k := 0, st := .sWaitIdle,
        cap := if na then s.cap else if s.config.capMode = .full then 26 else 3 + apl } ∧
      (t.txf 0).toNat = n + 2 ∧ t.txf 1 = cmd ∧ (∀ j, j < n → t.txf (2 + j) = s.pin j) ∧
      ∀ x, ¬ (0x50 ≤ x ∧ x < 0x50 + (n + 2)) → Memory.read t.mem x = Memory.read s.mem x

/-! ### The FSM: waits, transfers, ends -/

/-- 41_transport.md R141, R160, 70_reset_and_hazards.md R281, 00_scope.md R17, 30_encoding.md R95: WAITRDY on a line that is low at every one of its
N(TC) = max(1, ceil(T / POLL_US)) samples, T the timeout of the class S.op[17:16], ends with TIMEOUT after exactly N(TC) steps and N(TC) ticks,
chip-select untouched. That S.k is left at N is the model's reading of R141 against 10_state.md R47 (log 9). -/
def Obligations.WaitrdyTimesOutAfterExactlyN : Prop :=
  ∀ (s : State) (timeout n : Nat) (rest : List Bool),
    s.st = .wWaitHigh → s.k = 0 →
    (s.op.toNat / 2 ^ 16 % 4, timeout) ∈
      [(0, s.params.tNotxUs), (1, s.params.tTxUs), (2, s.params.tTxrxUs), (3, s.params.tInitUs)] →
    n = max 1 ((timeout + (s.params.pollUs - 1)) / s.params.pollUs) → s.busyIn = List.replicate n false ++ rest →
    fsmRun n s = { s with
      st := .idle, done := true, result := .timeout, k := n, busyIn := rest, draws := s.draws + n,
      trace := s.trace ++ (List.replicate n [Event.sample false, Event.tick]).flatten }

/-- 41_transport.md R141, R160, 00_scope.md R17, 30_encoding.md R95: WAITRDY on a line that is high after m < N(TC) low samples, N(TC) the bound of
the class S.op[17:16], ends OK after m ticks and m + 1 samples. -/
def Obligations.WaitrdySucceedsAtTheFirstHighSample : Prop :=
  ∀ (s : State) (timeout m : Nat) (rest : List Bool),
    s.st = .wWaitHigh → s.k = 0 →
    (s.op.toNat / 2 ^ 16 % 4, timeout) ∈
      [(0, s.params.tNotxUs), (1, s.params.tTxUs), (2, s.params.tTxrxUs), (3, s.params.tInitUs)] →
    m < max 1 ((timeout + (s.params.pollUs - 1)) / s.params.pollUs) → s.busyIn = List.replicate m false ++ true :: rest →
    fsmRun (m + 1) s = { s with
      st := .idle, done := true, result := .ok, k := m, busyIn := rest, draws := s.draws + (m + 1),
      trace := s.trace ++ (List.replicate m [Event.sample false, Event.tick]).flatten ++ [Event.sample true] }

/-- 41_transport.md R141, R142, R143, R144, R146, 00_scope.md R17, 30_encoding.md R95: each wait of a send or receive phase, entered with S.k = 0,
ends with TIMEOUT when the line shows the wrong level at each of its N samples: N ticks, one Deselect, no Select, chip-select inactive, no buffer
changed. N is max(1, ceil(T / POLL_US)) with T = T_NOTX_US, but for the receive phase's first wait with T the timeout of the class S.op[17:16];
with POLL_US ≥ 1 the N ticks last at least T. That S.k is left at N is the model's reading of R141 against 10_state.md R47 (log 9). -/
def Obligations.EveryPhaseWaitIsBounded : Prop :=
  ∀ (s : State) (timeout n : Nat) (level : Bool) (rest : List Bool),
    (s.st = .sWaitIdle ∧ level = false ∧ timeout = s.params.tNotxUs) ∨ (s.st = .sWaitAccept ∧ level = true ∧ timeout = s.params.tNotxUs) ∨
      (s.st = .sWaitDone ∧ level = false ∧ timeout = s.params.tNotxUs) ∨
      (s.st = .rWaitReady ∧ level = true ∧ (s.op.toNat / 2 ^ 16 % 4, timeout) ∈
        [(0, s.params.tNotxUs), (1, s.params.tTxUs), (2, s.params.tTxrxUs), (3, s.params.tInitUs)]) ∨
      (s.st = .rWaitDone ∧ level = false ∧ timeout = s.params.tNotxUs) →
    s.k = 0 → n = max 1 ((timeout + (s.params.pollUs - 1)) / s.params.pollUs) → s.busyIn = List.replicate n level ++ rest →
    fsmRun n s = { s with
      st := .idle, done := true, result := .timeout, csN := true, k := n, busyIn := rest, draws := s.draws + n,
      trace := s.trace ++ (List.replicate n [Event.sample level, Event.tick]).flatten ++ [Event.deselect] } ∧
    (1 ≤ s.params.pollUs → timeout ≤ n * s.params.pollUs)

/-- 41_transport.md R144, R145, 42_command_engine.md R181: a send phase of SEND, SENDNB or XACT without an acknowledgement (NA = 1) whose line shows
high, low, high at its three waits and whose exchanges report no error shifts TXF[0..len-1] in order and ends OK in len + 3 steps; no buffer
changes. -/
def Obligations.SendPhaseShiftsTheFrame : Prop :=
  ∀ (s : State) (xs : List (Byte × Bool)) (busyRest : List Bool) (xchgRest : List (Byte × Bool)),
    s.st = .sWaitIdle → s.k = 0 → (s.opCode = 0x3#4 ∨ s.opCode = 0x9#4 ∨ (s.opCode = 0x8#4 ∧ s.opNa = true)) →
    1 ≤ s.len → xs.length = s.len →
    (∀ x ∈ xs, x.2 = false) → s.busyIn = true :: false :: true :: busyRest → s.xchgIn = xs ++ xchgRest →
    fsmRun (s.len + 3) s = { s with
      st := .idle, done := true, result := .ok, csN := true, k := 0, i := s.len, busyIn := busyRest, xchgIn := xchgRest,
      draws := s.draws + (s.len + 3),
      trace := s.trace ++ [Event.sample true, Event.select, Event.sample false]
        ++ (List.range s.len).map (fun j => Event.xfer (s.txf j) (xs.getD j (0#8, false)).1)
        ++ [Event.sample true, Event.deselect] }

/-- 41_transport.md R146, R150: a receive phase of RECV whose line shows low, then high, and whose chip answers, without error, L bytes of
which the first is L with 1 ≤ L ≤ S.cap, stores them in RXF[0..L-1] and ends OK in L + 2 steps; no other byte changes, and no register but
RESULT and DONE. -/
def Obligations.ReceivePhaseStoresTheReply : Prop :=
  ∀ (s : State) (xs : List (Byte × Bool)) (busyRest : List Bool) (xchgRest : List (Byte × Bool)),
    s.st = .rWaitReady → s.k = 0 → s.opCode = 0x4#4 → s.cap ≤ 26 → 1 ≤ xs.length → xs.length ≤ s.cap →
    (xs.getD 0 (0#8, false)).1.toNat = xs.length → (∀ x ∈ xs, x.2 = false) →
    s.busyIn = false :: true :: busyRest → s.xchgIn = xs ++ xchgRest →
    ∃ t, fsmRun (xs.length + 2) s = t ∧
      t = { s with
        st := .idle, done := true, result := .ok, csN := true, mem := t.mem, i := t.i, lenByte := (xs.getD 0 (0#8, false)).1,
        busyIn := busyRest, xchgIn := xchgRest, draws := s.draws + (xs.length + 2),
        trace := s.trace ++ [Event.sample false, Event.select] ++ xs.map (fun x => Event.xfer 0xFF#8 x.1)
          ++ [Event.sample true, Event.deselect] } ∧
      (∀ j, j < xs.length → t.rxf j = (xs.getD j (0#8, false)).1) ∧
      ∀ x, ¬ (0x70 ≤ x ∧ x < 0x70 + xs.length) → Memory.read t.mem x = Memory.read s.mem x

/-- 41_transport.md R144, R146: a transfer error ends the phase with the exchange recorded, one Deselect and BUSERR; the failing byte is not
stored. -/
def Obligations.TransferErrorEndsThePhase : Prop :=
  ∀ (s : State) (tx : Byte),
    (s.st = .sXfer ∧ tx = s.txf s.i) ∨ (s.st = .rXferLen ∧ tx = 0xFF#8) ∨ (s.st = .rXfer ∧ tx = 0xFF#8) →
    s.errNext = true →
    fsmStep s = { s with
      st := .idle, done := true, result := .buserr, csN := true, xchgIn := s.xchgIn.tail, draws := s.draws + 1,
      trace := s.trace ++ [Event.xfer tx s.rxNext, Event.deselect] }

/-- 41_transport.md R146: the length byte is stored in RXF[0] and checked: 0 or more than S.cap ends with ACKLEN after exactly this byte, 1 goes
to the last wait, any other goes on with byte 1. -/
def Obligations.LengthByteIsChecked : Prop :=
  ∀ s : State, s.st = .rXferLen → s.errNext = false →
    (fsmStep s).rxf 0 = s.rxNext ∧ (fsmStep s).lenByte = s.rxNext ∧
    (∀ x, x ≠ 0x70 → Memory.read (fsmStep s).mem x = Memory.read s.mem x) ∧
    (s.rxNext.toNat = 0 ∨ s.cap < s.rxNext.toNat →
      (fsmStep s).st = .idle ∧ (fsmStep s).done = true ∧ (fsmStep s).result = .acklen ∧ (fsmStep s).csN = true ∧
      (fsmStep s).trace = s.trace ++ [Event.xfer 0xFF#8 s.rxNext, Event.deselect]) ∧
    (s.rxNext.toNat = 1 → 1 ≤ s.cap →
      (fsmStep s).st = .rWaitDone ∧ (fsmStep s).k = 0 ∧ (fsmStep s).csN = s.csN ∧
      (fsmStep s).trace = s.trace ++ [Event.xfer 0xFF#8 s.rxNext]) ∧
    (2 ≤ s.rxNext.toNat → s.rxNext.toNat ≤ s.cap →
      (fsmStep s).st = .rXfer ∧ (fsmStep s).i = 1 ∧ (fsmStep s).csN = s.csN ∧
      (fsmStep s).trace = s.trace ++ [Event.xfer 0xFF#8 s.rxNext])

/-- 41_transport.md R170: ISRDY takes one sample and no tick, reports RDY = 1 exactly when the level is low, and ends OK. -/
def Obligations.IsrdyReportsTheLine : Prop :=
  ∀ s : State, ∃ t, exec .isrdy s = .next t ∧
    fsmStep t = { s with
      rdy := !s.busyNext, st := .idle, done := true, result := .ok, busyIn := s.busyIn.tail, draws := s.draws + 1,
      trace := s.trace ++ [Event.sample s.busyNext] }

/-- 41_transport.md R175, 70_reset_and_hazards.md R281: a DELAY of D(MS) ≥ 1 ticks is BUSY for D(MS) steps, ticks D(MS) times, samples nothing and
ends OK. -/
def Obligations.DelayTakesExactlyItsTicks : Prop :=
  ∀ (s : State) (ms n : Nat), n = delayTicks s.params ms → 1 ≤ n →
    ∃ t, exec (.delay ms) s = .next t ∧
      (∀ j, j < n → (fsmRun j t).st = .dly) ∧
      fsmRun n t = { s with st := .idle, done := true, result := .ok, d := 0, trace := s.trace ++ List.replicate n Event.tick }

/-! ### The command engine -/

/-- 42_command_engine.md R183: the parse step, with S.cap ≥ 3. A rejected length ends with ACKLEN and writes nothing else; an accepted one writes
ACKINFO, APAY and DRVSTATE and ends with ACKERR exactly when the error byte is not 0. ANOMALY is the next statement's. -/
def Obligations.ParseStepUpdatesDriverState : Prop :=
  ∀ s : State, 3 ≤ s.cap → s.cap ≤ 26 →
    ((s.rxf 0).toNat < 3 ∨ s.cap < (s.rxf 0).toNat →
      parseStep s = { s with st := .idle, done := true, result := .acklen }) ∧
    (3 ≤ (s.rxf 0).toNat → (s.rxf 0).toNat ≤ s.cap →
      ∃ t, parseStep s = t ∧
        t = { s with
          drvstate := ⟨true, s.rxf 1, s.rxf 2⟩, ackinfo := t.ackinfo, mem := t.mem, anomaly := t.anomaly, st := .idle, done := true,
          result := if s.rxf 1 = 0#8 then .ok else .ackerr } ∧
        t.ackinfo.alen = s.rxf 0 ∧ t.ackinfo.aerr = s.rxf 1 ∧ t.ackinfo.astate = s.rxf 2 ∧
        t.ackinfo.aplen.toNat + 3 = (s.rxf 0).toNat ∧
        (∀ j, j < (s.rxf 0).toNat - 3 → t.apay j = s.rxf (3 + j)) ∧
        ∀ x, ¬ (0x90 ≤ x ∧ x < 0x90 + ((s.rxf 0).toNat - 3)) → Memory.read t.mem x = Memory.read s.mem x)

/-- 42_command_engine.md R184: a successful parse step of XACT sets ANOMALY when the declared length differs from 3 + APL and changes the result
in no way; READACK's parse step, a failed parse step, and PARSE leave ANOMALY as it is; and any step of the machine that raises ANOMALY is the
last poll step of XACT's receive phase with such a length. -/
def Obligations.AnomalyIsXactsLengthMismatch : Prop :=
  ∀ s : State,
    (3 ≤ s.cap → 3 ≤ (s.rxf 0).toNat → (s.rxf 0).toNat ≤ s.cap →
      (s.opCode = 0x8#4 → (s.rxf 0).toNat ≠ 3 + s.opApl → (parseStep s).anomaly = true) ∧
      (s.opCode = 0x8#4 → (s.rxf 0).toNat = 3 + s.opApl → (parseStep s).anomaly = s.anomaly) ∧
      (s.opCode = 0xA#4 → (parseStep s).anomaly = s.anomaly) ∧
      (parseStep s).result = if s.rxf 1 = 0#8 then .ok else .ackerr) ∧
    (3 ≤ s.cap → (s.rxf 0).toNat < 3 ∨ s.cap < (s.rxf 0).toNat → (parseStep s).anomaly = s.anomaly) ∧
    (∀ cap t, exec (.parse cap) s = .next t → t.anomaly = s.anomaly) ∧
    ∀ t, step s = .next t → s.anomaly = false → t.anomaly = true →
      s.st = .rWaitDone ∧ s.busyNext = true ∧ s.opCode = 0x8#4 ∧ 3 ≤ (s.rxf 0).toNat ∧ (s.rxf 0).toNat ≠ 3 + s.opApl

/-- 42_command_engine.md R180, R181, R183: a whole XACT. On an idle block, with legal fields, a line that shows high, low, high, low, high at
the five waits, and a chip that answers n + 2 bytes and then, without error, a frame ys of L = ys[0] bytes with 3 ≤ L ≤ S.cap, the operation
ends after n + L + 7 steps: the reply stands in RXF, its header in ACKINFO and DRVSTATE, its payload in APAY; the result is ACKERR exactly on a
non-zero error byte; ANOMALY exactly on a length other than 3 + APL; two Select and two Deselect. -/
def Obligations.XactRunsSendReceiveParse : Prop :=
  ∀ (s a : State) (v : Word) (cmd : Byte) (n : Nat) (tc : TimeoutClass) (apl : Nat) (xs ys : List (Byte × Bool))
    (busyRest : List Bool) (xchgRest : List (Byte × Bool)),
    decode v = .ok (.xact cmd n tc false apl) →
    s.params.cmdFirst.toNat ≤ cmd.toNat → cmd.toNat ≤ s.params.cmdLast.toNat → n ≤ 12 → apl ≤ 23 →
    exec (.xact cmd n tc false apl) (latchWord v s) = .next a →
    xs.length = n + 2 → 3 ≤ ys.length → ys.length ≤ a.cap → (ys.getD 0 (0#8, false)).1.toNat = ys.length →
    (∀ x ∈ xs ++ ys, x.2 = false) →
    s.busyIn = true :: false :: true :: false :: true :: busyRest → s.xchgIn = xs ++ ys ++ xchgRest →
    ∃ t, fsmRun (n + ys.length + 7) a = t ∧
      t.st = .idle ∧ t.done = true ∧ t.csN = true ∧ t.fatal = s.fatal ∧
      t.result = (if (ys.getD 1 (0#8, false)).1 = 0#8 then .ok else .ackerr) ∧
      t.anomaly = decide (ys.length ≠ 3 + apl) ∧
      t.drvstate = ⟨true, (ys.getD 1 (0#8, false)).1, (ys.getD 2 (0#8, false)).1⟩ ∧
      t.ackinfo = ⟨BitVec.ofNat 5 (ys.length - 3), (ys.getD 2 (0#8, false)).1, (ys.getD 1 (0#8, false)).1,
        (ys.getD 0 (0#8, false)).1⟩ ∧
      (∀ j, j < ys.length → t.rxf j = (ys.getD j (0#8, false)).1) ∧
      (∀ j, j < ys.length - 3 → t.apay j = (ys.getD (3 + j) (0#8, false)).1) ∧
      (∀ j, j < 12 → t.pin j = s.pin j) ∧
      t.selects = s.selects + 2 ∧ t.deselects = s.deselects + 2 ∧ t.ticks = s.ticks ∧
      t.busyIn = busyRest ∧ t.xchgIn = xchgRest

/-- 70_reset_and_hazards.md R261, 10_state.md R37: DRVSTATE changes only by reset or by the parse step of XACT or READACK, which sets VALID and
copies the error and state bytes of the reply. -/
def Obligations.DrvstateChangesOnlyByAParse : Prop :=
  ∀ s t : State, step s = .next t → t.drvstate ≠ s.drvstate →
    (∃ rest, s.agenda = .rst :: rest) ∨
    (s.st = .rWaitDone ∧ s.busyNext = true ∧ (s.opCode = 0x8#4 ∨ s.opCode = 0xA#4) ∧ t.drvstate = ⟨true, s.rxf 1, s.rxf 2⟩)

/-- 42_command_engine.md R192: XACT with CAPMODE 0 against SENDNB, ISRDY polls and READACK 26. XACT's send phase ends OK after m steps and leaves
the levels `post`; SENDNB sees the same levels, then the levels `polls` of the ISRDY polls, then `post`. SENDNB ends OK after m steps. p + 1
polls, p of which see the line high, end with RDY = 1 and change no buffer, DRVSTATE, ACKINFO or Deselect count. From any state with SENDNB's
parameters, buffers, DRVSTATE and ACKINFO and the chip inputs that XACT has left, READACK stays in step with XACT's receive phase after every
number of steps: the same FSM state, buffers, DRVSTATE, ACKINFO, DONE, RESULT and further Deselect events. The chip inputs left are the same when
the lists are long enough for a receive phase, or else when the draws that follow are the same (log 3). -/
def Obligations.SplitTransactionAgreesWithXact : Prop :=
  ∀ (s a c : State) (vx vs vi vr : Word) (cmd : Byte) (n : Nat) (tc : TimeoutClass) (apl m : Nat) (pre polls post : List Bool),
    s.config.capMode = .full →
    decode vx = .ok (.xact cmd n tc false apl) → decode vs = .ok (.sendnb cmd n) → decode vi = .ok .isrdy →
    decode vr = .ok (.readack 26 tc) →
    exec (.xact cmd n tc false apl) (latchWord vx s) = .next a → a.busy = true →
    (∀ j, j < m → (fsmRun j a).st.sending = true) → (fsmRun m a).st = .rWaitReady →
    s.busyIn = pre ++ post → (fsmRun m a).busyIn = post → (polls = [] ∨ post ≠ []) →
    exec (.sendnb cmd n) (latchWord vs { s with busyIn := pre ++ polls ++ post }) = .next c →
    ((fsmRun m c).st = .idle ∧ (fsmRun m c).done = true ∧ (fsmRun m c).result = .ok ∧
      (fsmRun m c).busyIn = polls ++ post ∧ (fsmRun m c).xchgIn = (fsmRun m a).xchgIn) ∧
    (∀ p, polls = List.replicate p true ++ [false] →
      (∀ j, 1 ≤ j → j ≤ p → ((afterLaunch vi 1)^[j] (fsmRun m c)).rdy = false) ∧
      ∃ e, (afterLaunch vi 1)^[p + 1] (fsmRun m c) = e ∧
        e.rdy = true ∧ e.st = .idle ∧ e.params = s.params ∧ e.mem = (fsmRun m c).mem ∧ e.drvstate = (fsmRun m c).drvstate ∧
        e.ackinfo = (fsmRun m c).ackinfo ∧ e.busyIn = post ∧ e.xchgIn = (fsmRun m a).xchgIn ∧
        e.deselects = (fsmRun m c).deselects) ∧
    ∀ e f : State,
      e.params = s.params → e.mem = (fsmRun m c).mem → e.drvstate = (fsmRun m c).drvstate → e.ackinfo = (fsmRun m c).ackinfo →
      e.busyIn = post → e.xchgIn = (fsmRun m a).xchgIn →
      (e.draws = (fsmRun m a).draws ∨
        (pollBound s.params tc + pollBound s.params .notx ≤ post.length ∧ 26 ≤ (fsmRun m a).xchgIn.length)) →
      exec (.readack 26 tc) (latchWord vr e) = .next f →
      ∀ j, (fsmRun j f).st = (fsmRun (m + j) a).st ∧ (fsmRun j f).mem = (fsmRun (m + j) a).mem ∧
        (fsmRun j f).drvstate = (fsmRun (m + j) a).drvstate ∧ (fsmRun j f).ackinfo = (fsmRun (m + j) a).ackinfo ∧
        (fsmRun j f).done = (fsmRun (m + j) a).done ∧ (fsmRun j f).result = (fsmRun (m + j) a).result ∧
        (fsmRun j f).deselects + (fsmRun m a).deselects = (fsmRun (m + j) a).deselects + e.deselects

/-! ### Whole operations, whole machine -/

/-- 41_transport.md R142, R158: a launched SEND, RECV, SENDNB or READACK, whatever the chip does. While it is BUSY it has released nothing, and a
Fatal(BUSY) there releases once; once it has ended it has released exactly once, as its last event, with at most one Select and chip-select
inactive. -/
def Obligations.ChipSelectIsReleasedExactlyOnce : Prop :=
  ∀ (s t : State) (v : Word) (i : Instr),
    decode v = .ok i →
    ((∃ n, i = .send n) ∨ (∃ cap tc, i = .recv cap tc) ∨ (∃ cmd n, i = .sendnb cmd n) ∨ (∃ cap tc, i = .readack cap tc)) →
    exec i (latchWord v s) = .next t → t.busy = true →
    ∀ n,
      ((fsmRun n t).busy = true →
        (fsmRun n t).deselects = s.deselects ∧ (raiseFatal .busy (fsmRun n t)).deselects = s.deselects + 1 ∧
        (raiseFatal .busy (fsmRun n t)).csN = true) ∧
      ((fsmRun n t).busy = false →
        (fsmRun n t).deselects = s.deselects + 1 ∧ (fsmRun n t).selects ≤ s.selects + 1 ∧ (fsmRun n t).csN = true ∧
        ∃ es, (fsmRun n t).trace = es ++ [Event.deselect])

/-- 41_transport.md R158: a launched XACT releases chip-select exactly twice when its send phase ended OK and the command has an
acknowledgement (it entered R_WAIT_READY), and exactly once otherwise, whatever the chip does; at the end chip-select is inactive. -/
def Obligations.XactReleasesOncePerPhase : Prop :=
  ∀ (s t : State) (v : Word) (cmd : Byte) (n : Nat) (tc : TimeoutClass) (na : Bool) (apl : Nat),
    decode v = .ok (.xact cmd n tc na apl) →
    exec (.xact cmd n tc na apl) (latchWord v s) = .next t → t.busy = true →
    ∀ m, (fsmRun m t).busy = false →
      (fsmRun m t).csN = true ∧
      ((∃ j, j < m ∧ (fsmRun j t).st = .rWaitReady) → na = false ∧ (fsmRun m t).deselects = s.deselects + 2) ∧
      ((∀ j, j < m → (fsmRun j t).st ≠ .rWaitReady) → (fsmRun m t).deselects = s.deselects + 1)

/-- 41_transport.md R159: every launched operation ends within its bound, whatever the chip does. -/
def Obligations.EveryOperationEndsWithinItsBound : Prop :=
  ∀ (s t : State) (v : Word) (i : Instr),
    decode v = .ok i → exec i (latchWord v s) = .next t →
    ∃ n, n ≤ opBound s.params i ∧ (fsmRun n t).busy = false

/-- 20_memory.md R80, R76: host reads put anywhere among FSM steps change nothing but the responses: the block ends as after the FSM steps
alone. -/
def Obligations.ReadsNeverDisturbTheFsm : Prop :=
  ∀ (ms rest : List Move) (s : State),
    (∀ m ∈ ms, m = .fsm ∨ ∃ addr, m = .host (.read addr)) → s.agenda = ms ++ rest →
    ∃ rs, rs.length + ms.count .fsm = ms.length ∧
      Host.Core.run Sys2Proof.core ms.length s =
        .next { fsmRun (ms.count .fsm) s with agenda := rest, resps := s.resps ++ rs }

/-- 10_state.md R45 to R48, 41_transport.md R142: every step keeps the control invariant `State.Inv` (chip-select, poll counters, byte index,
lengths and capacities agree with the FSM state; FATAL, FCAUSE, RESULT, DONE and BUSY agree; ACKINFO is a parsed header). -/
def Obligations.EveryStepKeepsTheInvariant : Prop :=
  ∀ s t : State, s.Inv = true → step s = .next t → t.Inv = true

/-- The control invariant holds after reset (10_state.md R50). -/
def Obligations.TheInvariantHoldsAtReset : Prop :=
  State.reset.Inv = true ∧ State.reset.memOk = true

/-- 10_state.md R40: every step keeps the storage of the buffers in its canonical form with no byte outside the four buffers (the form is the
model's choice, log 8). -/
def Obligations.EveryStepKeepsTheBuffersCanonical : Prop :=
  ∀ s t : State, s.memOk = true → step s = .next t → t.memOk = true

/-- 70_reset_and_hazards.md R264: the parameters are fixed when the block is built. That they are a field of State, which the reset input keeps, is
the model's choice (log 2). -/
def Obligations.NoStepChangesTheParameters : Prop :=
  ∀ s t : State, step s = .next t → t.params = s.params

/-- 00_scope.md R25, 70_reset_and_hazards.md R260: a step appends to the trace, but reset, which empties it. -/
def Obligations.TheTraceOnlyGrowsUntilReset : Prop :=
  ∀ s t : State, step s = .next t →
    ((∃ rest, s.agenda = .rst :: rest) ∧ t.trace = []) ∨ ((∀ rest, s.agenda ≠ .rst :: rest) ∧ ∃ es, t.trace = s.trace ++ es)

/-- 00_scope.md R16: with SPI_CAN_FAIL false no run of the FSM comes to BUSERR. -/
def Obligations.NoBusErrorWhenSpiCannotFail : Prop :=
  ∀ (s : State) (n : Nat), s.params.spiCanFail = false → s.result ≠ .buserr → (fsmRun n s).result ≠ .buserr

/-- 10_state.md R34, R48, 41_transport.md R170: RDY changes only by reset, by the launch of ISRDY, which clears it, or by ISRDY's sample step. -/
def Obligations.RdyChangesOnlyByIsrdy : Prop :=
  ∀ s t : State, step s = .next t → t.rdy ≠ s.rdy →
    (∃ rest, s.agenda = .rst :: rest) ∨ s.st = .smp ∨
    (∃ v rest, s.agenda = .host (.write 0x00#8 v) :: rest ∧ decode v = .ok .isrdy ∧ t.rdy = false)

/-! ### The frequency codec -/

/-- 43_frequency.md R200, R201: HZ2REG in range writes fi = floor(FACTOR·f / XO_HZ) and ff = floor((r << 19) / XO_HZ) and ends OK; ff < 2^19, and
with FACTOR = 1 fi lies in 28..39. A fi that does not fit 32 bits is a free value (log 10) and is not stated. -/
def Obligations.HzToRegistersIsTheForwardFormula : Prop :=
  ∀ s : State, 775000000 ≤ s.freq.toNat → s.freq.toNat ≤ 1100000000 →
    ∃ t, exec .hz2reg s = .next t ∧
      t = { s with fcint := t.fcint, fcfrac := t.fcfrac, st := .idle, done := true, result := .ok } ∧
      (s.params.factor * s.freq.toNat / 27600000 < 2 ^ 32 → t.fcint.toNat = s.params.factor * s.freq.toNat / 27600000) ∧
      t.fcfrac.toNat =
        (s.params.factor * s.freq.toNat - s.params.factor * s.freq.toNat / 27600000 * 27600000) * 2 ^ 19 / 27600000 ∧
      t.fcfrac.toNat < 2 ^ 19 ∧
      (s.params.factor = 1 → 28 ≤ t.fcint.toNat ∧ t.fcint.toNat ≤ 39)

/-- 43_frequency.md R203: REG2HZ in its domain writes the exact inverse formula, at most 1,766,399,947, and ends OK. -/
def Obligations.RegistersToHzIsTheInverseFormula : Prop :=
  ∀ s : State, s.fcint.toNat ≤ 63 → s.fcfrac.toNat ≤ 2 ^ 19 - 1 →
    ∃ t, exec .reg2hz s = .next t ∧
      t = { s with freq := t.freq, st := .idle, done := true, result := .ok } ∧
      t.freq.toNat = (5266 * s.fcfrac.toNat + 2048) / 2 ^ 13 + 52 * s.fcfrac.toNat + s.fcint.toNat * 27600000 ∧
      t.freq.toNat ≤ 1766399947

/-- 43_frequency.md R204: REG2HZ computes fi·XO_HZ + floor(ff·XO_HZ/2^19 + 1/4); the floor is written over the common denominator 2^21. -/
def Obligations.RegistersToHzHasItsClosedForm : Prop :=
  ∀ s t : State, s.fcint.toNat ≤ 63 → s.fcfrac.toNat ≤ 2 ^ 19 - 1 → exec .reg2hz s = .next t →
    t.freq.toNat = s.fcint.toNat * 27600000 + (4 * (s.fcfrac.toNat * 27600000) + 2 ^ 19) / 2 ^ 21

/-- 43_frequency.md R205: with FACTOR = 1, for every f in [F_MIN, F_MAX], HZ2REG ends OK, and REG2HZ on the registers it wrote, whatever FREQ
holds in between, ends OK with f − 53 ≤ FREQ ≤ f. -/
def Obligations.FrequencyRoundTripLosesAtMost53Hz : Prop :=
  ∀ s : State, s.params.factor = 1 → 775000000 ≤ s.freq.toNat → s.freq.toNat ≤ 1100000000 →
    ∃ t, exec .hz2reg s = .next t ∧ t.st = .idle ∧ t.done = true ∧ t.result = .ok ∧
      ∀ g : Word, ∃ u, exec .reg2hz { t with freq := g } = .next u ∧ u.st = .idle ∧ u.done = true ∧ u.result = .ok ∧
        s.freq.toNat ≤ u.freq.toNat + 53 ∧ u.freq.toNat ≤ s.freq.toNat

/-- 43_frequency.md R210, R215, R218: STORE and RESTORE in Layout B place and read the fields most significant first, and end OK. -/
def Obligations.LayoutBPlacesTheFields : Prop :=
  ∀ s : State, s.config.layout = .b →
    (s.fcint.toNat ≤ 255 → s.fcfrac.toNat ≤ 2 ^ 24 - 1 →
      ∃ t, exec .store s = .next t ∧
        t = { s with dreg0 := t.dreg0, dreg1 := t.dreg1, st := .idle, done := true, result := .ok } ∧
        t.dreg0.toNat = s.fcint.toNat * 2 ^ 8 + s.fcfrac.toNat / 2 ^ 16 ∧ t.dreg1.toNat = s.fcfrac.toNat % 2 ^ 16) ∧
    ∃ t, exec .restore s = .next t ∧
      t = { s with fcint := t.fcint, fcfrac := t.fcfrac, st := .idle, done := true, result := .ok } ∧
      t.fcint.toNat = s.dreg0.toNat / 2 ^ 8 ∧ t.fcfrac.toNat = s.dreg0.toNat % 2 ^ 8 * 2 ^ 16 + s.dreg1.toNat

/-- 43_frequency.md R212, R215, R218: STORE and RESTORE in Layout A, on a block that has it, place and read the fields as R212 says, with FRACEN
stored as 1 and bits 15:9 of DREG0 ignored by RESTORE. -/
def Obligations.LayoutAPlacesTheFields : Prop :=
  ∀ s : State, s.config.layout = .a → s.params.hasLayoutA = true →
    (s.fcint.toNat ≤ 63 → s.fcfrac.toNat ≤ 2 ^ 19 - 1 →
      ∃ t, exec .store s = .next t ∧
        t = { s with dreg0 := t.dreg0, dreg1 := t.dreg1, st := .idle, done := true, result := .ok } ∧
        t.dreg0.toNat = 2 ^ 9 + s.fcfrac.toNat % 2 ^ 9 ∧ t.dreg1.toNat = s.fcint.toNat * 2 ^ 10 + s.fcfrac.toNat / 2 ^ 9) ∧
    ∃ t, exec .restore s = .next t ∧
      t = { s with fcint := t.fcint, fcfrac := t.fcfrac, st := .idle, done := true, result := .ok } ∧
      t.fcint.toNat = s.dreg1.toNat / 2 ^ 10 ∧ t.fcfrac.toNat = s.dreg1.toNat % 2 ^ 10 * 2 ^ 9 + s.dreg0.toNat % 2 ^ 9

/-- 43_frequency.md R219: RESTORE after STORE gives back FCINT and FCFRAC over each layout's domain; STORE after RESTORE gives back DREG0 and
DREG1 in Layout B always, and in Layout A exactly when DREG0[15:9] = 0b0000001. -/
def Obligations.LayoutsRoundTrip : Prop :=
  ∀ s : State,
    (s.config.layout = .b ∧ s.fcint.toNat ≤ 255 ∧ s.fcfrac.toNat < 2 ^ 24 ∨
        s.config.layout = .a ∧ s.params.hasLayoutA = true ∧ s.fcint.toNat ≤ 63 ∧ s.fcfrac.toNat < 2 ^ 19 →
      ∃ t u, exec .store s = .next t ∧ exec .restore t = .next u ∧ u.fcint = s.fcint ∧ u.fcfrac = s.fcfrac) ∧
    (s.config.layout = .b →
      ∃ t u, exec .restore s = .next t ∧ exec .store t = .next u ∧ u.dreg0 = s.dreg0 ∧ u.dreg1 = s.dreg1) ∧
    (s.config.layout = .a → s.params.hasLayoutA = true →
      ∃ t u, exec .restore s = .next t ∧ exec .store t = .next u ∧
        (u.dreg0 = s.dreg0 ∧ u.dreg1 = s.dreg1 ↔ s.dreg0.toNat / 2 ^ 9 = 1))

/-! ### Poll counts, and the whole receive of READACK -/

/-- 00_scope.md R17, 30_encoding.md R95: N(TC) is the least count of at least 1 whose ticks last the class's timeout, and D(m) the least count
whose ticks last m milliseconds; their values at the defaults. -/
def Obligations.PollCountsAreTheCeilings : Prop :=
  (∀ (p : Params) (tc : TimeoutClass) (timeout : Nat), 1 ≤ p.pollUs →
    (tc, timeout) ∈ [(TimeoutClass.notx, p.tNotxUs), (.tx, p.tTxUs), (.txrx, p.tTxrxUs), (.init, p.tInitUs)] →
    1 ≤ pollBound p tc ∧ timeout ≤ pollBound p tc * p.pollUs ∧
    ∀ n, 1 ≤ n → timeout ≤ n * p.pollUs → pollBound p tc ≤ n) ∧
  (∀ (p : Params) (m : Nat), 1 ≤ p.pollUs →
    m * 1000 ≤ delayTicks p m * p.pollUs ∧ ∀ n, m * 1000 ≤ n * p.pollUs → delayTicks p m ≤ n) ∧
  pollBound Params.default .notx = 20000 ∧ pollBound Params.default .tx = 150000 ∧ pollBound Params.default .txrx = 600000 ∧
  pollBound Params.default .init = 50000 ∧ ∀ m, delayTicks Params.default m = 10 * m

/-- 42_command_engine.md R183, R190, 41_transport.md R146: a receive phase of READACK whose line shows low, then high, and whose chip answers,
without error, L bytes of which the first is L with 1 ≤ L ≤ S.cap, stores them in RXF[0..L-1] and ends in L + 2 steps: with ACKLEN and nothing
else written for L < 3, else with ACKINFO, APAY and DRVSTATE from the reply and ACKERR exactly on a non-zero error byte; ANOMALY stays. -/
def Obligations.ReadackReceivesAndParses : Prop :=
  ∀ (s : State) (xs : List (Byte × Bool)) (busyRest : List Bool) (xchgRest : List (Byte × Bool)),
    s.st = .rWaitReady → s.k = 0 → s.opCode = 0xA#4 → 3 ≤ s.cap → s.cap ≤ 26 → 1 ≤ xs.length → xs.length ≤ s.cap →
    (xs.getD 0 (0#8, false)).1.toNat = xs.length → (∀ x ∈ xs, x.2 = false) →
    s.busyIn = false :: true :: busyRest → s.xchgIn = xs ++ xchgRest →
    ∃ t, fsmRun (xs.length + 2) s = t ∧
      t = { s with
        st := .idle, done := true, result := t.result, csN := true, mem := t.mem, i := t.i, lenByte := (xs.getD 0 (0#8, false)).1,
        drvstate := t.drvstate, ackinfo := t.ackinfo,
        busyIn := busyRest, xchgIn := xchgRest, draws := s.draws + (xs.length + 2),
        trace := s.trace ++ [Event.sample false, Event.select] ++ xs.map (fun x => Event.xfer 0xFF#8 x.1)
          ++ [Event.sample true, Event.deselect] } ∧
      (∀ j, j < xs.length → t.rxf j = (xs.getD j (0#8, false)).1) ∧
      (xs.length < 3 →
        t.result = .acklen ∧ t.drvstate = s.drvstate ∧ t.ackinfo = s.ackinfo ∧
        ∀ x, ¬ (0x70 ≤ x ∧ x < 0x70 + xs.length) → Memory.read t.mem x = Memory.read s.mem x) ∧
      (3 ≤ xs.length →
        t.result = (if (xs.getD 1 (0#8, false)).1 = 0#8 then .ok else .ackerr) ∧
        t.drvstate = ⟨true, (xs.getD 1 (0#8, false)).1, (xs.getD 2 (0#8, false)).1⟩ ∧
        t.ackinfo = ⟨BitVec.ofNat 5 (xs.length - 3), (xs.getD 2 (0#8, false)).1, (xs.getD 1 (0#8, false)).1,
          (xs.getD 0 (0#8, false)).1⟩ ∧
        (∀ j, j < xs.length - 3 → t.apay j = (xs.getD (3 + j) (0#8, false)).1) ∧
        ∀ x, ¬ (0x70 ≤ x ∧ x < 0x70 + xs.length) → ¬ (0x90 ≤ x ∧ x < 0x90 + (xs.length - 3)) →
          Memory.read t.mem x = Memory.read s.mem x)
end

