-- ==== Sys2Proof/Laws/Decode.lean ====
section
/-! SUPPORT. The fields of an assembled operation word (30_encoding.md R90): each reads back what was put into it. -/

namespace Sys2Proof

section
variable (cap apl : BitVec 5) (na : Bool) (tc : BitVec 2) (cmd : BitVec 8) (n op : BitVec 4)

@[simp] theorem fieldOp_assembleFO : fieldOp (assembleFO cap apl na tc cmd n op) = op := by
  ext i hi
  simp only [fieldOp, assembleFO, BitVec.getElem_extractLsb', BitVec.getLsbD_append]
  rw [if_pos (by omega), BitVec.getLsbD_eq_getElem (by omega)]
  congr 1; omega

@[simp] theorem fieldN_assembleFO : fieldN (assembleFO cap apl na tc cmd n op) = n := by
  ext i hi
  simp only [fieldN, assembleFO, BitVec.getElem_extractLsb', BitVec.getLsbD_append]
  repeat rw [if_neg (by omega)]
  rw [if_pos (by omega), BitVec.getLsbD_eq_getElem (by omega)]
  congr 1; omega

@[simp] theorem fieldCmd_assembleFO : fieldCmd (assembleFO cap apl na tc cmd n op) = cmd := by
  ext i hi
  simp only [fieldCmd, assembleFO, BitVec.getElem_extractLsb', BitVec.getLsbD_append]
  repeat rw [if_neg (by omega)]
  rw [if_pos (by omega), BitVec.getLsbD_eq_getElem (by omega)]
  congr 1; omega

@[simp] theorem fieldTc_assembleFO : fieldTc (assembleFO cap apl na tc cmd n op) = tc := by
  ext i hi
  simp only [fieldTc, assembleFO, BitVec.getElem_extractLsb', BitVec.getLsbD_append]
  repeat rw [if_neg (by omega)]
  rw [if_pos (by omega), BitVec.getLsbD_eq_getElem (by omega)]
  congr 1; omega

@[simp] theorem fieldNa_assembleFO : fieldNa (assembleFO cap apl na tc cmd n op) = na := by
  simp only [fieldNa, assembleFO, BitVec.getLsbD_append]
  repeat rw [if_neg (by omega)]
  rw [if_pos (by omega)]
  simp

@[simp] theorem fieldApl_assembleFO : fieldApl (assembleFO cap apl na tc cmd n op) = apl := by
  ext i hi
  simp only [fieldApl, assembleFO, BitVec.getElem_extractLsb', BitVec.getLsbD_append]
  repeat rw [if_neg (by omega)]
  rw [if_pos (by omega), BitVec.getLsbD_eq_getElem (by omega)]
  congr 1; omega

@[simp] theorem fieldCap_assembleFO : fieldCap (assembleFO cap apl na tc cmd n op) = cap := by
  ext i hi
  simp only [fieldCap, assembleFO, BitVec.getElem_extractLsb', BitVec.getLsbD_append]
  repeat rw [if_neg (by omega)]
  rw [if_pos (by omega), BitVec.getLsbD_eq_getElem (by omega)]
  congr 1; omega

@[simp] theorem fieldRsv_assembleFO : fieldRsv (assembleFO cap apl na tc cmd n op) = 0#3 := by
  ext i hi
  simp only [fieldRsv, assembleFO, BitVec.getElem_extractLsb', BitVec.getLsbD_append]
  repeat rw [if_neg (by omega)]
  simp

end

section
variable (ms : BitVec 16) (op : BitVec 4)

@[simp] theorem fieldOp_assembleFD : fieldOp (assembleFD ms op) = op := by
  ext i hi
  simp only [fieldOp, assembleFD, BitVec.getElem_extractLsb', BitVec.getLsbD_append]
  rw [if_pos (by omega), BitVec.getLsbD_eq_getElem (by omega)]
  congr 1; omega

@[simp] theorem fieldMs_assembleFD : fieldMs (assembleFD ms op) = ms := by
  ext i hi
  simp only [fieldMs, assembleFD, BitVec.getElem_extractLsb', BitVec.getLsbD_append]
  repeat rw [if_neg (by omega)]
  rw [if_pos (by omega), BitVec.getLsbD_eq_getElem (by omega)]
  congr 1; omega

@[simp] theorem fieldRsv_assembleFD : fieldRsv (assembleFD ms op) = 0#3 := by
  ext i hi
  simp only [fieldRsv, assembleFD, BitVec.getElem_extractLsb', BitVec.getLsbD_append]
  repeat rw [if_neg (by omega)]
  simp

end

/-- The TC field names its class again (30_encoding.md R95). -/
@[simp] theorem tcOfField_fieldOfTc (tc : TimeoutClass) : tcOfField (fieldOfTc tc) = tc := by
  cases tc <;> decide

end Sys2Proof
end

