-- ==== Sys2Proof/Laws/State.lean ====
section
/-! SUPPORT. For every update of the state, what each field holds after it: one theorem per update, each of its conjuncts true by `rfl`,
tagged `@[simp]` so that simp rewrites any field of any update without unfolding it. -/

namespace Sys2Proof.Machine


/-- Every field after `sampleBusy s`. -/
@[simp] theorem sampleBusy_fields (s : State) :
    (sampleBusy s).params = s.params ∧ (sampleBusy s).opword = s.opword ∧ (sampleBusy s).done = s.done ∧
    (sampleBusy s).fatal = s.fatal ∧ (sampleBusy s).result = s.result ∧ (sampleBusy s).anomaly = s.anomaly ∧
    (sampleBusy s).rdy = s.rdy ∧ (sampleBusy s).fcause = s.fcause ∧ (sampleBusy s).config = s.config ∧
    (sampleBusy s).drvstate = s.drvstate ∧ (sampleBusy s).ackinfo = s.ackinfo ∧ (sampleBusy s).freq = s.freq ∧
    (sampleBusy s).fcint = s.fcint ∧ (sampleBusy s).fcfrac = s.fcfrac ∧ (sampleBusy s).dreg0 = s.dreg0 ∧
    (sampleBusy s).dreg1 = s.dreg1 ∧ (sampleBusy s).mem = s.mem ∧ (sampleBusy s).st = s.st ∧ (sampleBusy s).op = s.op ∧
    (sampleBusy s).k = s.k ∧ (sampleBusy s).i = s.i ∧ (sampleBusy s).len = s.len ∧ (sampleBusy s).cap = s.cap ∧
    (sampleBusy s).lenByte = s.lenByte ∧ (sampleBusy s).d = s.d ∧ (sampleBusy s).csN = s.csN ∧
    (sampleBusy s).trace = s.trace ++ [.sample s.busyNext] ∧ (sampleBusy s).busyIn = s.busyIn.tail ∧
    (sampleBusy s).xchgIn = s.xchgIn ∧ (sampleBusy s).draws = s.draws + 1 ∧ (sampleBusy s).agenda = s.agenda ∧
    (sampleBusy s).resps = s.resps := by
  refine ⟨rfl, rfl, rfl, rfl, rfl, rfl, rfl, rfl, rfl, rfl, rfl, rfl, rfl, rfl, rfl, rfl, rfl, rfl, rfl, rfl, rfl, rfl, rfl, rfl, rfl, rfl, rfl, rfl, rfl, rfl, rfl, rfl⟩

/-- Every field after `spiXchg tx s`. -/
@[simp] theorem spiXchg_fields (tx : Byte) (s : State) :
    (spiXchg tx s).params = s.params ∧ (spiXchg tx s).opword = s.opword ∧ (spiXchg tx s).done = s.done ∧
    (spiXchg tx s).fatal = s.fatal ∧ (spiXchg tx s).result = s.result ∧ (spiXchg tx s).anomaly = s.anomaly ∧
    (spiXchg tx s).rdy = s.rdy ∧ (spiXchg tx s).fcause = s.fcause ∧ (spiXchg tx s).config = s.config ∧
    (spiXchg tx s).drvstate = s.drvstate ∧ (spiXchg tx s).ackinfo = s.ackinfo ∧ (spiXchg tx s).freq = s.freq ∧
    (spiXchg tx s).fcint = s.fcint ∧ (spiXchg tx s).fcfrac = s.fcfrac ∧ (spiXchg tx s).dreg0 = s.dreg0 ∧
    (spiXchg tx s).dreg1 = s.dreg1 ∧ (spiXchg tx s).mem = s.mem ∧ (spiXchg tx s).st = s.st ∧ (spiXchg tx s).op = s.op ∧
    (spiXchg tx s).k = s.k ∧ (spiXchg tx s).i = s.i ∧ (spiXchg tx s).len = s.len ∧ (spiXchg tx s).cap = s.cap ∧
    (spiXchg tx s).lenByte = s.lenByte ∧ (spiXchg tx s).d = s.d ∧ (spiXchg tx s).csN = s.csN ∧
    (spiXchg tx s).trace = s.trace ++ [.xfer tx s.rxNext] ∧ (spiXchg tx s).busyIn = s.busyIn ∧
    (spiXchg tx s).xchgIn = s.xchgIn.tail ∧ (spiXchg tx s).draws = s.draws + 1 ∧ (spiXchg tx s).agenda = s.agenda ∧
    (spiXchg tx s).resps = s.resps := by
  refine ⟨rfl, rfl, rfl, rfl, rfl, rfl, rfl, rfl, rfl, rfl, rfl, rfl, rfl, rfl, rfl, rfl, rfl, rfl, rfl, rfl, rfl, rfl, rfl, rfl, rfl, rfl, rfl, rfl, rfl, rfl, rfl, rfl⟩

/-- Every field after `csAssert s`. -/
@[simp] theorem csAssert_fields (s : State) :
    (csAssert s).params = s.params ∧ (csAssert s).opword = s.opword ∧ (csAssert s).done = s.done ∧
    (csAssert s).fatal = s.fatal ∧ (csAssert s).result = s.result ∧ (csAssert s).anomaly = s.anomaly ∧
    (csAssert s).rdy = s.rdy ∧ (csAssert s).fcause = s.fcause ∧ (csAssert s).config = s.config ∧
    (csAssert s).drvstate = s.drvstate ∧ (csAssert s).ackinfo = s.ackinfo ∧ (csAssert s).freq = s.freq ∧
    (csAssert s).fcint = s.fcint ∧ (csAssert s).fcfrac = s.fcfrac ∧ (csAssert s).dreg0 = s.dreg0 ∧
    (csAssert s).dreg1 = s.dreg1 ∧ (csAssert s).mem = s.mem ∧ (csAssert s).st = s.st ∧ (csAssert s).op = s.op ∧
    (csAssert s).k = s.k ∧ (csAssert s).i = s.i ∧ (csAssert s).len = s.len ∧ (csAssert s).cap = s.cap ∧
    (csAssert s).lenByte = s.lenByte ∧ (csAssert s).d = s.d ∧ (csAssert s).csN = false ∧
    (csAssert s).trace = s.trace ++ [.select] ∧ (csAssert s).busyIn = s.busyIn ∧ (csAssert s).xchgIn = s.xchgIn ∧
    (csAssert s).draws = s.draws ∧ (csAssert s).agenda = s.agenda ∧ (csAssert s).resps = s.resps := by
  refine ⟨rfl, rfl, rfl, rfl, rfl, rfl, rfl, rfl, rfl, rfl, rfl, rfl, rfl, rfl, rfl, rfl, rfl, rfl, rfl, rfl, rfl, rfl, rfl, rfl, rfl, rfl, rfl, rfl, rfl, rfl, rfl, rfl⟩

/-- Every field after `csRelease s`. -/
@[simp] theorem csRelease_fields (s : State) :
    (csRelease s).params = s.params ∧ (csRelease s).opword = s.opword ∧ (csRelease s).done = s.done ∧
    (csRelease s).fatal = s.fatal ∧ (csRelease s).result = s.result ∧ (csRelease s).anomaly = s.anomaly ∧
    (csRelease s).rdy = s.rdy ∧ (csRelease s).fcause = s.fcause ∧ (csRelease s).config = s.config ∧
    (csRelease s).drvstate = s.drvstate ∧ (csRelease s).ackinfo = s.ackinfo ∧ (csRelease s).freq = s.freq ∧
    (csRelease s).fcint = s.fcint ∧ (csRelease s).fcfrac = s.fcfrac ∧ (csRelease s).dreg0 = s.dreg0 ∧
    (csRelease s).dreg1 = s.dreg1 ∧ (csRelease s).mem = s.mem ∧ (csRelease s).st = s.st ∧ (csRelease s).op = s.op ∧
    (csRelease s).k = s.k ∧ (csRelease s).i = s.i ∧ (csRelease s).len = s.len ∧ (csRelease s).cap = s.cap ∧
    (csRelease s).lenByte = s.lenByte ∧ (csRelease s).d = s.d ∧ (csRelease s).csN = true ∧
    (csRelease s).trace = s.trace ++ [.deselect] ∧ (csRelease s).busyIn = s.busyIn ∧ (csRelease s).xchgIn = s.xchgIn ∧
    (csRelease s).draws = s.draws ∧ (csRelease s).agenda = s.agenda ∧ (csRelease s).resps = s.resps := by
  refine ⟨rfl, rfl, rfl, rfl, rfl, rfl, rfl, rfl, rfl, rfl, rfl, rfl, rfl, rfl, rfl, rfl, rfl, rfl, rfl, rfl, rfl, rfl, rfl, rfl, rfl, rfl, rfl, rfl, rfl, rfl, rfl, rfl⟩

/-- Every field after `tick s`. -/
@[simp] theorem tick_fields (s : State) :
    (tick s).params = s.params ∧ (tick s).opword = s.opword ∧ (tick s).done = s.done ∧ (tick s).fatal = s.fatal ∧
    (tick s).result = s.result ∧ (tick s).anomaly = s.anomaly ∧ (tick s).rdy = s.rdy ∧ (tick s).fcause = s.fcause ∧
    (tick s).config = s.config ∧ (tick s).drvstate = s.drvstate ∧ (tick s).ackinfo = s.ackinfo ∧ (tick s).freq = s.freq ∧
    (tick s).fcint = s.fcint ∧ (tick s).fcfrac = s.fcfrac ∧ (tick s).dreg0 = s.dreg0 ∧ (tick s).dreg1 = s.dreg1 ∧
    (tick s).mem = s.mem ∧ (tick s).st = s.st ∧ (tick s).op = s.op ∧ (tick s).k = s.k ∧ (tick s).i = s.i ∧
    (tick s).len = s.len ∧ (tick s).cap = s.cap ∧ (tick s).lenByte = s.lenByte ∧ (tick s).d = s.d ∧ (tick s).csN = s.csN ∧
    (tick s).trace = s.trace ++ [.tick] ∧ (tick s).busyIn = s.busyIn ∧ (tick s).xchgIn = s.xchgIn ∧
    (tick s).draws = s.draws ∧ (tick s).agenda = s.agenda ∧ (tick s).resps = s.resps := by
  refine ⟨rfl, rfl, rfl, rfl, rfl, rfl, rfl, rfl, rfl, rfl, rfl, rfl, rfl, rfl, rfl, rfl, rfl, rfl, rfl, rfl, rfl, rfl, rfl, rfl, rfl, rfl, rfl, rfl, rfl, rfl, rfl, rfl⟩

/-- Every field after `goto x s`. -/
@[simp] theorem goto_fields (x : FsmState) (s : State) :
    (goto x s).params = s.params ∧ (goto x s).opword = s.opword ∧ (goto x s).done = s.done ∧ (goto x s).fatal = s.fatal ∧
    (goto x s).result = s.result ∧ (goto x s).anomaly = s.anomaly ∧ (goto x s).rdy = s.rdy ∧ (goto x s).fcause = s.fcause ∧
    (goto x s).config = s.config ∧ (goto x s).drvstate = s.drvstate ∧ (goto x s).ackinfo = s.ackinfo ∧
    (goto x s).freq = s.freq ∧ (goto x s).fcint = s.fcint ∧ (goto x s).fcfrac = s.fcfrac ∧ (goto x s).dreg0 = s.dreg0 ∧
    (goto x s).dreg1 = s.dreg1 ∧ (goto x s).mem = s.mem ∧ (goto x s).st = x ∧ (goto x s).op = s.op ∧ (goto x s).k = s.k ∧
    (goto x s).i = s.i ∧ (goto x s).len = s.len ∧ (goto x s).cap = s.cap ∧ (goto x s).lenByte = s.lenByte ∧
    (goto x s).d = s.d ∧ (goto x s).csN = s.csN ∧ (goto x s).trace = s.trace ∧ (goto x s).busyIn = s.busyIn ∧
    (goto x s).xchgIn = s.xchgIn ∧ (goto x s).draws = s.draws ∧ (goto x s).agenda = s.agenda ∧ (goto x s).resps = s.resps := by
  refine ⟨rfl, rfl, rfl, rfl, rfl, rfl, rfl, rfl, rfl, rfl, rfl, rfl, rfl, rfl, rfl, rfl, rfl, rfl, rfl, rfl, rfl, rfl, rfl, rfl, rfl, rfl, rfl, rfl, rfl, rfl, rfl, rfl⟩

/-- Every field after `enterWait x s`. -/
@[simp] theorem enterWait_fields (x : FsmState) (s : State) :
    (enterWait x s).params = s.params ∧ (enterWait x s).opword = s.opword ∧ (enterWait x s).done = s.done ∧
    (enterWait x s).fatal = s.fatal ∧ (enterWait x s).result = s.result ∧ (enterWait x s).anomaly = s.anomaly ∧
    (enterWait x s).rdy = s.rdy ∧ (enterWait x s).fcause = s.fcause ∧ (enterWait x s).config = s.config ∧
    (enterWait x s).drvstate = s.drvstate ∧ (enterWait x s).ackinfo = s.ackinfo ∧ (enterWait x s).freq = s.freq ∧
    (enterWait x s).fcint = s.fcint ∧ (enterWait x s).fcfrac = s.fcfrac ∧ (enterWait x s).dreg0 = s.dreg0 ∧
    (enterWait x s).dreg1 = s.dreg1 ∧ (enterWait x s).mem = s.mem ∧ (enterWait x s).st = x ∧ (enterWait x s).op = s.op ∧
    (enterWait x s).k = 0 ∧ (enterWait x s).i = s.i ∧ (enterWait x s).len = s.len ∧ (enterWait x s).cap = s.cap ∧
    (enterWait x s).lenByte = s.lenByte ∧ (enterWait x s).d = s.d ∧ (enterWait x s).csN = s.csN ∧
    (enterWait x s).trace = s.trace ∧ (enterWait x s).busyIn = s.busyIn ∧ (enterWait x s).xchgIn = s.xchgIn ∧
    (enterWait x s).draws = s.draws ∧ (enterWait x s).agenda = s.agenda ∧ (enterWait x s).resps = s.resps := by
  refine ⟨rfl, rfl, rfl, rfl, rfl, rfl, rfl, rfl, rfl, rfl, rfl, rfl, rfl, rfl, rfl, rfl, rfl, rfl, rfl, rfl, rfl, rfl, rfl, rfl, rfl, rfl, rfl, rfl, rfl, rfl, rfl, rfl⟩

/-- Every field after `finish r s`. -/
@[simp] theorem finish_fields (r : OpResult) (s : State) :
    (finish r s).params = s.params ∧ (finish r s).opword = s.opword ∧ (finish r s).done = true ∧
    (finish r s).fatal = s.fatal ∧ (finish r s).result = r ∧ (finish r s).anomaly = s.anomaly ∧ (finish r s).rdy = s.rdy ∧
    (finish r s).fcause = s.fcause ∧ (finish r s).config = s.config ∧ (finish r s).drvstate = s.drvstate ∧
    (finish r s).ackinfo = s.ackinfo ∧ (finish r s).freq = s.freq ∧ (finish r s).fcint = s.fcint ∧
    (finish r s).fcfrac = s.fcfrac ∧ (finish r s).dreg0 = s.dreg0 ∧ (finish r s).dreg1 = s.dreg1 ∧ (finish r s).mem = s.mem ∧
    (finish r s).st = .idle ∧ (finish r s).op = s.op ∧ (finish r s).k = s.k ∧ (finish r s).i = s.i ∧
    (finish r s).len = s.len ∧ (finish r s).cap = s.cap ∧ (finish r s).lenByte = s.lenByte ∧ (finish r s).d = s.d ∧
    (finish r s).csN = s.csN ∧ (finish r s).trace = s.trace ∧ (finish r s).busyIn = s.busyIn ∧
    (finish r s).xchgIn = s.xchgIn ∧ (finish r s).draws = s.draws ∧ (finish r s).agenda = s.agenda ∧
    (finish r s).resps = s.resps := by
  refine ⟨rfl, rfl, rfl, rfl, rfl, rfl, rfl, rfl, rfl, rfl, rfl, rfl, rfl, rfl, rfl, rfl, rfl, rfl, rfl, rfl, rfl, rfl, rfl, rfl, rfl, rfl, rfl, rfl, rfl, rfl, rfl, rfl⟩

/-- Every field after `abortPhase r s`. -/
@[simp] theorem abortPhase_fields (r : OpResult) (s : State) :
    (abortPhase r s).params = s.params ∧ (abortPhase r s).opword = s.opword ∧ (abortPhase r s).done = true ∧
    (abortPhase r s).fatal = s.fatal ∧ (abortPhase r s).result = r ∧ (abortPhase r s).anomaly = s.anomaly ∧
    (abortPhase r s).rdy = s.rdy ∧ (abortPhase r s).fcause = s.fcause ∧ (abortPhase r s).config = s.config ∧
    (abortPhase r s).drvstate = s.drvstate ∧ (abortPhase r s).ackinfo = s.ackinfo ∧ (abortPhase r s).freq = s.freq ∧
    (abortPhase r s).fcint = s.fcint ∧ (abortPhase r s).fcfrac = s.fcfrac ∧ (abortPhase r s).dreg0 = s.dreg0 ∧
    (abortPhase r s).dreg1 = s.dreg1 ∧ (abortPhase r s).mem = s.mem ∧ (abortPhase r s).st = .idle ∧
    (abortPhase r s).op = s.op ∧ (abortPhase r s).k = s.k ∧ (abortPhase r s).i = s.i ∧ (abortPhase r s).len = s.len ∧
    (abortPhase r s).cap = s.cap ∧ (abortPhase r s).lenByte = s.lenByte ∧ (abortPhase r s).d = s.d ∧
    (abortPhase r s).csN = true ∧ (abortPhase r s).trace = s.trace ++ [.deselect] ∧ (abortPhase r s).busyIn = s.busyIn ∧
    (abortPhase r s).xchgIn = s.xchgIn ∧ (abortPhase r s).draws = s.draws ∧ (abortPhase r s).agenda = s.agenda ∧
    (abortPhase r s).resps = s.resps := by
  refine ⟨rfl, rfl, rfl, rfl, rfl, rfl, rfl, rfl, rfl, rfl, rfl, rfl, rfl, rfl, rfl, rfl, rfl, rfl, rfl, rfl, rfl, rfl, rfl, rfl, rfl, rfl, rfl, rfl, rfl, rfl, rfl, rfl⟩

/-- Every field after `setRxf j v s`. -/
@[simp] theorem setRxf_fields (j : Nat) (v : Byte) (s : State) :
    (setRxf j v s).params = s.params ∧ (setRxf j v s).opword = s.opword ∧ (setRxf j v s).done = s.done ∧
    (setRxf j v s).fatal = s.fatal ∧ (setRxf j v s).result = s.result ∧ (setRxf j v s).anomaly = s.anomaly ∧
    (setRxf j v s).rdy = s.rdy ∧ (setRxf j v s).fcause = s.fcause ∧ (setRxf j v s).config = s.config ∧
    (setRxf j v s).drvstate = s.drvstate ∧ (setRxf j v s).ackinfo = s.ackinfo ∧ (setRxf j v s).freq = s.freq ∧
    (setRxf j v s).fcint = s.fcint ∧ (setRxf j v s).fcfrac = s.fcfrac ∧ (setRxf j v s).dreg0 = s.dreg0 ∧
    (setRxf j v s).dreg1 = s.dreg1 ∧ (setRxf j v s).mem = Memory.writeBuf s.mem .rxf j v ∧ (setRxf j v s).st = s.st ∧
    (setRxf j v s).op = s.op ∧ (setRxf j v s).k = s.k ∧ (setRxf j v s).i = s.i ∧ (setRxf j v s).len = s.len ∧
    (setRxf j v s).cap = s.cap ∧ (setRxf j v s).lenByte = s.lenByte ∧ (setRxf j v s).d = s.d ∧ (setRxf j v s).csN = s.csN ∧
    (setRxf j v s).trace = s.trace ∧ (setRxf j v s).busyIn = s.busyIn ∧ (setRxf j v s).xchgIn = s.xchgIn ∧
    (setRxf j v s).draws = s.draws ∧ (setRxf j v s).agenda = s.agenda ∧ (setRxf j v s).resps = s.resps := by
  refine ⟨rfl, rfl, rfl, rfl, rfl, rfl, rfl, rfl, rfl, rfl, rfl, rfl, rfl, rfl, rfl, rfl, rfl, rfl, rfl, rfl, rfl, rfl, rfl, rfl, rfl, rfl, rfl, rfl, rfl, rfl, rfl, rfl⟩

/-- Every field after `setRdy v s`. -/
@[simp] theorem setRdy_fields (v : Bool) (s : State) :
    (setRdy v s).params = s.params ∧ (setRdy v s).opword = s.opword ∧ (setRdy v s).done = s.done ∧
    (setRdy v s).fatal = s.fatal ∧ (setRdy v s).result = s.result ∧ (setRdy v s).anomaly = s.anomaly ∧ (setRdy v s).rdy = v ∧
    (setRdy v s).fcause = s.fcause ∧ (setRdy v s).config = s.config ∧ (setRdy v s).drvstate = s.drvstate ∧
    (setRdy v s).ackinfo = s.ackinfo ∧ (setRdy v s).freq = s.freq ∧ (setRdy v s).fcint = s.fcint ∧
    (setRdy v s).fcfrac = s.fcfrac ∧ (setRdy v s).dreg0 = s.dreg0 ∧ (setRdy v s).dreg1 = s.dreg1 ∧ (setRdy v s).mem = s.mem ∧
    (setRdy v s).st = s.st ∧ (setRdy v s).op = s.op ∧ (setRdy v s).k = s.k ∧ (setRdy v s).i = s.i ∧
    (setRdy v s).len = s.len ∧ (setRdy v s).cap = s.cap ∧ (setRdy v s).lenByte = s.lenByte ∧ (setRdy v s).d = s.d ∧
    (setRdy v s).csN = s.csN ∧ (setRdy v s).trace = s.trace ∧ (setRdy v s).busyIn = s.busyIn ∧
    (setRdy v s).xchgIn = s.xchgIn ∧ (setRdy v s).draws = s.draws ∧ (setRdy v s).agenda = s.agenda ∧
    (setRdy v s).resps = s.resps := by
  refine ⟨rfl, rfl, rfl, rfl, rfl, rfl, rfl, rfl, rfl, rfl, rfl, rfl, rfl, rfl, rfl, rfl, rfl, rfl, rfl, rfl, rfl, rfl, rfl, rfl, rfl, rfl, rfl, rfl, rfl, rfl, rfl, rfl⟩

/-- Every field after `respond r s`. -/
@[simp] theorem respond_fields (r : HostResp) (s : State) :
    (respond r s).params = s.params ∧ (respond r s).opword = s.opword ∧ (respond r s).done = s.done ∧
    (respond r s).fatal = s.fatal ∧ (respond r s).result = s.result ∧ (respond r s).anomaly = s.anomaly ∧
    (respond r s).rdy = s.rdy ∧ (respond r s).fcause = s.fcause ∧ (respond r s).config = s.config ∧
    (respond r s).drvstate = s.drvstate ∧ (respond r s).ackinfo = s.ackinfo ∧ (respond r s).freq = s.freq ∧
    (respond r s).fcint = s.fcint ∧ (respond r s).fcfrac = s.fcfrac ∧ (respond r s).dreg0 = s.dreg0 ∧
    (respond r s).dreg1 = s.dreg1 ∧ (respond r s).mem = s.mem ∧ (respond r s).st = s.st ∧ (respond r s).op = s.op ∧
    (respond r s).k = s.k ∧ (respond r s).i = s.i ∧ (respond r s).len = s.len ∧ (respond r s).cap = s.cap ∧
    (respond r s).lenByte = s.lenByte ∧ (respond r s).d = s.d ∧ (respond r s).csN = s.csN ∧ (respond r s).trace = s.trace ∧
    (respond r s).busyIn = s.busyIn ∧ (respond r s).xchgIn = s.xchgIn ∧ (respond r s).draws = s.draws ∧
    (respond r s).agenda = s.agenda ∧ (respond r s).resps = s.resps ++ [r] := by
  refine ⟨rfl, rfl, rfl, rfl, rfl, rfl, rfl, rfl, rfl, rfl, rfl, rfl, rfl, rfl, rfl, rfl, rfl, rfl, rfl, rfl, rfl, rfl, rfl, rfl, rfl, rfl, rfl, rfl, rfl, rfl, rfl, rfl⟩

/-- Every field after `openSend n s`. -/
@[simp] theorem openSend_fields (n : Nat) (s : State) :
    (openSend n s).params = s.params ∧ (openSend n s).opword = s.opword ∧ (openSend n s).done = s.done ∧
    (openSend n s).fatal = s.fatal ∧ (openSend n s).result = s.result ∧ (openSend n s).anomaly = s.anomaly ∧
    (openSend n s).rdy = s.rdy ∧ (openSend n s).fcause = s.fcause ∧ (openSend n s).config = s.config ∧
    (openSend n s).drvstate = s.drvstate ∧ (openSend n s).ackinfo = s.ackinfo ∧ (openSend n s).freq = s.freq ∧
    (openSend n s).fcint = s.fcint ∧ (openSend n s).fcfrac = s.fcfrac ∧ (openSend n s).dreg0 = s.dreg0 ∧
    (openSend n s).dreg1 = s.dreg1 ∧ (openSend n s).mem = s.mem ∧ (openSend n s).st = .sWaitIdle ∧ (openSend n s).op = s.op ∧
    (openSend n s).k = 0 ∧ (openSend n s).i = s.i ∧ (openSend n s).len = n ∧ (openSend n s).cap = s.cap ∧
    (openSend n s).lenByte = s.lenByte ∧ (openSend n s).d = s.d ∧ (openSend n s).csN = s.csN ∧
    (openSend n s).trace = s.trace ∧ (openSend n s).busyIn = s.busyIn ∧ (openSend n s).xchgIn = s.xchgIn ∧
    (openSend n s).draws = s.draws ∧ (openSend n s).agenda = s.agenda ∧ (openSend n s).resps = s.resps := by
  refine ⟨rfl, rfl, rfl, rfl, rfl, rfl, rfl, rfl, rfl, rfl, rfl, rfl, rfl, rfl, rfl, rfl, rfl, rfl, rfl, rfl, rfl, rfl, rfl, rfl, rfl, rfl, rfl, rfl, rfl, rfl, rfl, rfl⟩

/-- Every field after `clearLaunchFlags s`. -/
@[simp] theorem clearLaunchFlags_fields (s : State) :
    (clearLaunchFlags s).params = s.params ∧ (clearLaunchFlags s).opword = s.opword ∧ (clearLaunchFlags s).done = false ∧
    (clearLaunchFlags s).fatal = s.fatal ∧ (clearLaunchFlags s).result = .ok ∧ (clearLaunchFlags s).anomaly = false ∧
    (clearLaunchFlags s).rdy = s.rdy ∧ (clearLaunchFlags s).fcause = s.fcause ∧ (clearLaunchFlags s).config = s.config ∧
    (clearLaunchFlags s).drvstate = s.drvstate ∧ (clearLaunchFlags s).ackinfo = s.ackinfo ∧
    (clearLaunchFlags s).freq = s.freq ∧ (clearLaunchFlags s).fcint = s.fcint ∧ (clearLaunchFlags s).fcfrac = s.fcfrac ∧
    (clearLaunchFlags s).dreg0 = s.dreg0 ∧ (clearLaunchFlags s).dreg1 = s.dreg1 ∧ (clearLaunchFlags s).mem = s.mem ∧
    (clearLaunchFlags s).st = s.st ∧ (clearLaunchFlags s).op = s.op ∧ (clearLaunchFlags s).k = s.k ∧
    (clearLaunchFlags s).i = s.i ∧ (clearLaunchFlags s).len = s.len ∧ (clearLaunchFlags s).cap = s.cap ∧
    (clearLaunchFlags s).lenByte = s.lenByte ∧ (clearLaunchFlags s).d = s.d ∧ (clearLaunchFlags s).csN = s.csN ∧
    (clearLaunchFlags s).trace = s.trace ∧ (clearLaunchFlags s).busyIn = s.busyIn ∧ (clearLaunchFlags s).xchgIn = s.xchgIn ∧
    (clearLaunchFlags s).draws = s.draws ∧ (clearLaunchFlags s).agenda = s.agenda ∧ (clearLaunchFlags s).resps = s.resps := by
  refine ⟨rfl, rfl, rfl, rfl, rfl, rfl, rfl, rfl, rfl, rfl, rfl, rfl, rfl, rfl, rfl, rfl, rfl, rfl, rfl, rfl, rfl, rfl, rfl, rfl, rfl, rfl, rfl, rfl, rfl, rfl, rfl, rfl⟩

/-- Every field after `latchWord v s`. -/
@[simp] theorem latchWord_fields (v : Word) (s : State) :
    (latchWord v s).params = s.params ∧ (latchWord v s).opword = v ∧ (latchWord v s).done = false ∧
    (latchWord v s).fatal = s.fatal ∧ (latchWord v s).result = .ok ∧ (latchWord v s).anomaly = false ∧
    (latchWord v s).rdy = s.rdy ∧ (latchWord v s).fcause = s.fcause ∧ (latchWord v s).config = s.config ∧
    (latchWord v s).drvstate = s.drvstate ∧ (latchWord v s).ackinfo = s.ackinfo ∧ (latchWord v s).freq = s.freq ∧
    (latchWord v s).fcint = s.fcint ∧ (latchWord v s).fcfrac = s.fcfrac ∧ (latchWord v s).dreg0 = s.dreg0 ∧
    (latchWord v s).dreg1 = s.dreg1 ∧ (latchWord v s).mem = s.mem ∧ (latchWord v s).st = s.st ∧ (latchWord v s).op = v ∧
    (latchWord v s).k = s.k ∧ (latchWord v s).i = s.i ∧ (latchWord v s).len = s.len ∧ (latchWord v s).cap = s.cap ∧
    (latchWord v s).lenByte = s.lenByte ∧ (latchWord v s).d = s.d ∧ (latchWord v s).csN = s.csN ∧
    (latchWord v s).trace = s.trace ∧ (latchWord v s).busyIn = s.busyIn ∧ (latchWord v s).xchgIn = s.xchgIn ∧
    (latchWord v s).draws = s.draws ∧ (latchWord v s).agenda = s.agenda ∧ (latchWord v s).resps = s.resps := by
  refine ⟨rfl, rfl, rfl, rfl, rfl, rfl, rfl, rfl, rfl, rfl, rfl, rfl, rfl, rfl, rfl, rfl, rfl, rfl, rfl, rfl, rfl, rfl, rfl, rfl, rfl, rfl, rfl, rfl, rfl, rfl, rfl, rfl⟩

/-- Every field after `acceptWord v s`. -/
@[simp] theorem acceptWord_fields (v : Word) (s : State) :
    (acceptWord v s).params = s.params ∧ (acceptWord v s).opword = v ∧ (acceptWord v s).done = false ∧
    (acceptWord v s).fatal = s.fatal ∧ (acceptWord v s).result = .ok ∧ (acceptWord v s).anomaly = false ∧
    (acceptWord v s).rdy = s.rdy ∧ (acceptWord v s).fcause = s.fcause ∧ (acceptWord v s).config = s.config ∧
    (acceptWord v s).drvstate = s.drvstate ∧ (acceptWord v s).ackinfo = s.ackinfo ∧ (acceptWord v s).freq = s.freq ∧
    (acceptWord v s).fcint = s.fcint ∧ (acceptWord v s).fcfrac = s.fcfrac ∧ (acceptWord v s).dreg0 = s.dreg0 ∧
    (acceptWord v s).dreg1 = s.dreg1 ∧ (acceptWord v s).mem = s.mem ∧ (acceptWord v s).st = s.st ∧
    (acceptWord v s).op = s.op ∧ (acceptWord v s).k = s.k ∧ (acceptWord v s).i = s.i ∧ (acceptWord v s).len = s.len ∧
    (acceptWord v s).cap = s.cap ∧ (acceptWord v s).lenByte = s.lenByte ∧ (acceptWord v s).d = s.d ∧
    (acceptWord v s).csN = s.csN ∧ (acceptWord v s).trace = s.trace ∧ (acceptWord v s).busyIn = s.busyIn ∧
    (acceptWord v s).xchgIn = s.xchgIn ∧ (acceptWord v s).draws = s.draws ∧ (acceptWord v s).agenda = s.agenda ∧
    (acceptWord v s).resps = s.resps := by
  refine ⟨rfl, rfl, rfl, rfl, rfl, rfl, rfl, rfl, rfl, rfl, rfl, rfl, rfl, rfl, rfl, rfl, rfl, rfl, rfl, rfl, rfl, rfl, rfl, rfl, rfl, rfl, rfl, rfl, rfl, rfl, rfl, rfl⟩

/-- `packFrame cmd n s` writes the buffers only. -/
@[simp] theorem packFrame_fields (cmd : Byte) (n : Nat) (s : State) :
    (packFrame cmd n s).params = s.params ∧ (packFrame cmd n s).opword = s.opword ∧ (packFrame cmd n s).done = s.done ∧
    (packFrame cmd n s).fatal = s.fatal ∧ (packFrame cmd n s).result = s.result ∧ (packFrame cmd n s).anomaly = s.anomaly ∧
    (packFrame cmd n s).rdy = s.rdy ∧ (packFrame cmd n s).fcause = s.fcause ∧ (packFrame cmd n s).config = s.config ∧
    (packFrame cmd n s).drvstate = s.drvstate ∧ (packFrame cmd n s).ackinfo = s.ackinfo ∧ (packFrame cmd n s).freq = s.freq ∧
    (packFrame cmd n s).fcint = s.fcint ∧ (packFrame cmd n s).fcfrac = s.fcfrac ∧ (packFrame cmd n s).dreg0 = s.dreg0 ∧
    (packFrame cmd n s).dreg1 = s.dreg1 ∧ (packFrame cmd n s).st = s.st ∧ (packFrame cmd n s).op = s.op ∧
    (packFrame cmd n s).k = s.k ∧ (packFrame cmd n s).i = s.i ∧ (packFrame cmd n s).len = s.len ∧
    (packFrame cmd n s).cap = s.cap ∧ (packFrame cmd n s).lenByte = s.lenByte ∧ (packFrame cmd n s).d = s.d ∧
    (packFrame cmd n s).csN = s.csN ∧ (packFrame cmd n s).trace = s.trace ∧ (packFrame cmd n s).busyIn = s.busyIn ∧
    (packFrame cmd n s).xchgIn = s.xchgIn ∧ (packFrame cmd n s).draws = s.draws ∧ (packFrame cmd n s).agenda = s.agenda ∧
    (packFrame cmd n s).resps = s.resps := by
  refine ⟨rfl, rfl, rfl, rfl, rfl, rfl, rfl, rfl, rfl, rfl, rfl, rfl, rfl, rfl, rfl, rfl, rfl, rfl, rfl, rfl, rfl, rfl, rfl, rfl, rfl, rfl, rfl, rfl, rfl, rfl, rfl⟩

/-- `dummyFill n s` writes the buffers only. -/
@[simp] theorem dummyFill_fields (n : Nat) (s : State) :
    (dummyFill n s).params = s.params ∧ (dummyFill n s).opword = s.opword ∧ (dummyFill n s).done = s.done ∧
    (dummyFill n s).fatal = s.fatal ∧ (dummyFill n s).result = s.result ∧ (dummyFill n s).anomaly = s.anomaly ∧
    (dummyFill n s).rdy = s.rdy ∧ (dummyFill n s).fcause = s.fcause ∧ (dummyFill n s).config = s.config ∧
    (dummyFill n s).drvstate = s.drvstate ∧ (dummyFill n s).ackinfo = s.ackinfo ∧ (dummyFill n s).freq = s.freq ∧
    (dummyFill n s).fcint = s.fcint ∧ (dummyFill n s).fcfrac = s.fcfrac ∧ (dummyFill n s).dreg0 = s.dreg0 ∧
    (dummyFill n s).dreg1 = s.dreg1 ∧ (dummyFill n s).st = s.st ∧ (dummyFill n s).op = s.op ∧ (dummyFill n s).k = s.k ∧
    (dummyFill n s).i = s.i ∧ (dummyFill n s).len = s.len ∧ (dummyFill n s).cap = s.cap ∧
    (dummyFill n s).lenByte = s.lenByte ∧ (dummyFill n s).d = s.d ∧ (dummyFill n s).csN = s.csN ∧
    (dummyFill n s).trace = s.trace ∧ (dummyFill n s).busyIn = s.busyIn ∧ (dummyFill n s).xchgIn = s.xchgIn ∧
    (dummyFill n s).draws = s.draws ∧ (dummyFill n s).agenda = s.agenda ∧ (dummyFill n s).resps = s.resps := by
  refine ⟨rfl, rfl, rfl, rfl, rfl, rfl, rfl, rfl, rfl, rfl, rfl, rfl, rfl, rfl, rfl, rfl, rfl, rfl, rfl, rfl, rfl, rfl, rfl, rfl, rfl, rfl, rfl, rfl, rfl, rfl, rfl⟩

/-- `openReceive s` writes TXF, S.k and S.st only. -/
@[simp] theorem openReceive_fields (s : State) :
    (openReceive s).params = s.params ∧ (openReceive s).opword = s.opword ∧ (openReceive s).done = s.done ∧
    (openReceive s).fatal = s.fatal ∧ (openReceive s).result = s.result ∧ (openReceive s).anomaly = s.anomaly ∧
    (openReceive s).rdy = s.rdy ∧ (openReceive s).fcause = s.fcause ∧ (openReceive s).config = s.config ∧
    (openReceive s).drvstate = s.drvstate ∧ (openReceive s).ackinfo = s.ackinfo ∧ (openReceive s).freq = s.freq ∧
    (openReceive s).fcint = s.fcint ∧ (openReceive s).fcfrac = s.fcfrac ∧ (openReceive s).dreg0 = s.dreg0 ∧
    (openReceive s).dreg1 = s.dreg1 ∧ (openReceive s).st = .rWaitReady ∧ (openReceive s).op = s.op ∧ (openReceive s).k = 0 ∧
    (openReceive s).i = s.i ∧ (openReceive s).len = s.len ∧ (openReceive s).cap = s.cap ∧
    (openReceive s).lenByte = s.lenByte ∧ (openReceive s).d = s.d ∧ (openReceive s).csN = s.csN ∧
    (openReceive s).trace = s.trace ∧ (openReceive s).busyIn = s.busyIn ∧ (openReceive s).xchgIn = s.xchgIn ∧
    (openReceive s).draws = s.draws ∧ (openReceive s).agenda = s.agenda ∧ (openReceive s).resps = s.resps := by
  refine ⟨rfl, rfl, rfl, rfl, rfl, rfl, rfl, rfl, rfl, rfl, rfl, rfl, rfl, rfl, rfl, rfl, rfl, rfl, rfl, rfl, rfl, rfl, rfl, rfl, rfl, rfl, rfl, rfl, rfl, rfl, rfl⟩

/-- Every field after a Fatal (60_exceptions.md R233). -/
@[simp] theorem raiseFatal_fields (c : FatalCause) (s : State) :
    (raiseFatal c s).params = s.params ∧ (raiseFatal c s).opword = s.opword ∧ (raiseFatal c s).done = true ∧
    (raiseFatal c s).fatal = true ∧ (raiseFatal c s).result = .fatal ∧ (raiseFatal c s).anomaly = s.anomaly ∧
    (raiseFatal c s).rdy = s.rdy ∧ (raiseFatal c s).fcause = c ∧ (raiseFatal c s).config = s.config ∧
    (raiseFatal c s).drvstate = s.drvstate ∧ (raiseFatal c s).ackinfo = s.ackinfo ∧ (raiseFatal c s).freq = s.freq ∧
    (raiseFatal c s).fcint = s.fcint ∧ (raiseFatal c s).fcfrac = s.fcfrac ∧ (raiseFatal c s).dreg0 = s.dreg0 ∧
    (raiseFatal c s).dreg1 = s.dreg1 ∧ (raiseFatal c s).mem = s.mem ∧ (raiseFatal c s).st = .fault ∧
    (raiseFatal c s).op = s.op ∧ (raiseFatal c s).k = s.k ∧ (raiseFatal c s).i = s.i ∧ (raiseFatal c s).len = s.len ∧
    (raiseFatal c s).cap = s.cap ∧ (raiseFatal c s).lenByte = s.lenByte ∧ (raiseFatal c s).d = s.d ∧
    (raiseFatal c s).csN = (s.st.phaseOpen || s.csN) ∧
    (raiseFatal c s).trace = s.trace ++ (if s.st.phaseOpen then [.deselect] else []) ∧ (raiseFatal c s).busyIn = s.busyIn ∧
    (raiseFatal c s).xchgIn = s.xchgIn ∧ (raiseFatal c s).draws = s.draws ∧ (raiseFatal c s).agenda = s.agenda ∧
    (raiseFatal c s).resps = s.resps := by
  unfold raiseFatal; split <;> simp_all

/-- Every field after the anomaly check (42_command_engine.md R184). -/
@[simp] theorem flagAnomaly_fields (s : State) :
    (flagAnomaly s).params = s.params ∧ (flagAnomaly s).opword = s.opword ∧ (flagAnomaly s).done = s.done ∧
    (flagAnomaly s).fatal = s.fatal ∧ (flagAnomaly s).result = s.result ∧
    (flagAnomaly s).anomaly = (s.anomaly || (s.isXact && decide ((s.rxf 0).toNat ≠ Config.ackHdr + s.opApl))) ∧
    (flagAnomaly s).rdy = s.rdy ∧ (flagAnomaly s).fcause = s.fcause ∧ (flagAnomaly s).config = s.config ∧
    (flagAnomaly s).drvstate = s.drvstate ∧ (flagAnomaly s).ackinfo = s.ackinfo ∧ (flagAnomaly s).freq = s.freq ∧
    (flagAnomaly s).fcint = s.fcint ∧ (flagAnomaly s).fcfrac = s.fcfrac ∧ (flagAnomaly s).dreg0 = s.dreg0 ∧
    (flagAnomaly s).dreg1 = s.dreg1 ∧ (flagAnomaly s).mem = s.mem ∧ (flagAnomaly s).st = s.st ∧ (flagAnomaly s).op = s.op ∧
    (flagAnomaly s).k = s.k ∧ (flagAnomaly s).i = s.i ∧ (flagAnomaly s).len = s.len ∧ (flagAnomaly s).cap = s.cap ∧
    (flagAnomaly s).lenByte = s.lenByte ∧ (flagAnomaly s).d = s.d ∧ (flagAnomaly s).csN = s.csN ∧
    (flagAnomaly s).trace = s.trace ∧ (flagAnomaly s).busyIn = s.busyIn ∧ (flagAnomaly s).xchgIn = s.xchgIn ∧
    (flagAnomaly s).draws = s.draws ∧ (flagAnomaly s).agenda = s.agenda ∧ (flagAnomaly s).resps = s.resps := by
  unfold flagAnomaly; split <;> simp_all

end Sys2Proof.Machine
end

