-- ==== Sys2Proof/Laws/Frequency.lean ====
section
/-! SUPPORT. The frequency codec's arithmetic: the ranges that make each result fit its register (43_frequency.md R200, R203). -/

namespace Sys2Proof.Machine

/-- An integer part that fits the register is written as it is. -/
theorem fcintWord_toNat {fi : Nat} (h : fi < 2 ^ 32) : (fcintWord fi).toNat = fi := by
  unfold fcintWord; rw [if_pos h]; simpa using h

/-- The fractional part is below 2^19 (43_frequency.md R200). -/
theorem hzToFcfrac_lt (factor f : Nat) : hzToFcfrac factor f < 2 ^ 19 := by
  unfold hzToFcfrac hzToFcint; simp only [Config.xoHz, Config.fracBits]; omega

/-- The fractional part as HZ2REG writes it. -/
theorem fcfrac_toNat (factor f : Nat) : (BitVec.ofNat 32 (hzToFcfrac factor f)).toNat = hzToFcfrac factor f := by
  have := hzToFcfrac_lt factor f
  rw [BitVec.toNat_ofNat, Nat.mod_eq_of_lt (by omega)]

/-- The largest result of REG2HZ (43_frequency.md R203). -/
theorem regToHz_le {fi ff : Nat} (hi : fi ≤ 63) (hf : ff ≤ 2 ^ 19 - 1) : regToHz fi ff ≤ 1766399947 := by
  unfold regToHz; simp only [Config.xoHz]; omega

/-- The result of REG2HZ fits its register. -/
theorem regToHz_toNat {fi ff : Nat} (hi : fi ≤ 63) (hf : ff ≤ 2 ^ 19 - 1) :
    (BitVec.ofNat 32 (regToHz fi ff)).toNat = regToHz fi ff := by
  have := regToHz_le hi hf
  rw [BitVec.toNat_ofNat, Nat.mod_eq_of_lt (by omega)]

end Sys2Proof.Machine
end

