-- ==== Sys2Proof/Laws/Memory.lean ====
section
/-! SUPPORT. The buffers: reading after writing, the bytes a store leaves alone, and the canonical form, which every memory
operation keeps. -/

namespace Sys2Proof.Machine

/-! ### One offset -/

@[simp] theorem Memory.read_nil (x : Nat) : Memory.read [] x = 0x00#8 := rfl

theorem Memory.read_erase_same (m : Memory) (x : Nat) : Memory.read (Memory.erase m x) x = 0x00#8 := by
  induction m with
  | nil => rfl
  | cons c rest ih =>
    obtain ⟨a, b⟩ := c
    by_cases h : a = x <;> simp [Memory.erase, Memory.read, h, ih]

theorem Memory.read_erase_other (m : Memory) {x y : Nat} (h : y ≠ x) :
    Memory.read (Memory.erase m x) y = Memory.read m y := by
  induction m with
  | nil => rfl
  | cons c rest ih =>
    obtain ⟨a, b⟩ := c
    by_cases ha : a = x
    · have : a ≠ y := fun e => h (e ▸ ha)
      simp [Memory.erase, Memory.read, ha, ih, Ne.symm h]
    · by_cases hy : a = y
      · subst hy; simp [Memory.erase, Memory.read, ha]
      · simp [Memory.erase, Memory.read, ha, hy, ih]

theorem Memory.read_insert_other (m : Memory) {x y : Nat} (v : Byte) (h : y ≠ x) :
    Memory.read (Memory.insert m x v) y = Memory.read m y := by
  induction m with
  | nil => simp [Memory.insert, Memory.read, Ne.symm h, Memory.blank]
  | cons c rest ih =>
    obtain ⟨a, b⟩ := c
    by_cases ha : x < a
    · simp [Memory.insert, Memory.read, ha, Ne.symm h]
    · by_cases hy : a = y
      · subst hy; simp [Memory.insert, Memory.read, ha]
      · simp [Memory.insert, Memory.read, ha, hy, ih]

theorem Memory.read_insert_same (m : Memory) (x : Nat) (v : Byte) (h : ∀ c ∈ m, c.1 ≠ x) :
    Memory.read (Memory.insert m x v) x = v := by
  induction m with
  | nil => simp [Memory.insert, Memory.read]
  | cons c rest ih =>
    obtain ⟨a, b⟩ := c
    have hax : a ≠ x := h (a, b) (by simp)
    by_cases ha : x < a
    · simp [Memory.insert, Memory.read, ha]
    · simp [Memory.insert, Memory.read, ha, hax, ih (fun c hc => h c (by simp [hc]))]

theorem Memory.erase_keys (m : Memory) (x : Nat) : ∀ c ∈ Memory.erase m x, c.1 ≠ x := by
  induction m with
  | nil => simp [Memory.erase]
  | cons c rest ih =>
    obtain ⟨a, b⟩ := c
    by_cases h : a = x
    · simpa [Memory.erase, h] using ih
    · intro c hc
      simp only [Memory.erase, h, if_false, List.mem_cons] at hc
      rcases hc with rfl | hc
      · exact h
      · exact ih c hc

/-- Reading the offset just written gives the byte written. -/
@[simp] theorem Memory.read_write_same (m : Memory) (x : Nat) (v : Byte) :
    Memory.read (Memory.write m x v) x = v := by
  unfold Memory.write
  split
  · next h => rw [Memory.read_erase_same, h]; rfl
  · exact Memory.read_insert_same _ _ _ (Memory.erase_keys m x)

/-- A write leaves every other offset alone. -/
theorem Memory.read_write_other (m : Memory) {x y : Nat} (v : Byte) (h : y ≠ x) :
    Memory.read (Memory.write m x v) y = Memory.read m y := by
  unfold Memory.write
  split
  · exact Memory.read_erase_other m h
  · rw [Memory.read_insert_other _ _ h, Memory.read_erase_other m h]

/-! ### The canonical form -/

/-- The canonical form as a statement about the whole list. -/
theorem Memory.wf_iff (m : Memory) :
    Memory.wf m = true ↔ m.Pairwise (fun c d => c.1 < d.1) ∧ ∀ c ∈ m, c.2 ≠ Memory.blank := by
  induction m with
  | nil => simp [Memory.wf]
  | cons c rest ih =>
    obtain ⟨a, b⟩ := c
    cases rest with
    | nil => simp [Memory.wf]
    | cons d rest' =>
      obtain ⟨a', b'⟩ := d
      simp only [Memory.wf, Bool.and_eq_true, decide_eq_true_eq, ih]
      constructor
      · rintro ⟨⟨hb, hlt⟩, hp, hne⟩
        refine ⟨List.pairwise_cons.2 ⟨?_, hp⟩, ?_⟩
        · intro c hc
          rcases List.mem_cons.1 hc with rfl | hc'
          · exact hlt
          · exact lt_trans hlt ((List.pairwise_cons.1 hp).1 c hc')
        · intro c hc
          rcases List.mem_cons.1 hc with rfl | hc'
          · exact hb
          · exact hne c hc'
      · rintro ⟨hp, hne⟩
        have h1 := List.pairwise_cons.1 hp
        exact ⟨⟨hne (a, b) (by simp), h1.1 (a', b') (by simp)⟩, h1.2, fun c hc => hne c (by simp [hc])⟩

theorem Memory.erase_sub (m : Memory) (x : Nat) : (Memory.erase m x).Sublist m := by
  induction m with
  | nil => exact List.Sublist.slnil
  | cons c rest ih =>
    obtain ⟨a, b⟩ := c
    by_cases h : a = x
    · simpa [Memory.erase, h] using List.Sublist.cons (a, b) ih
    · simpa [Memory.erase, h] using ih.cons_cons (a, b)

theorem Memory.mem_insert (m : Memory) (x : Nat) (v : Byte) (c : Host.Cell) :
    c ∈ Memory.insert m x v ↔ c = (x, v) ∨ c ∈ m := by
  induction m with
  | nil => simp [Memory.insert]
  | cons d rest ih =>
    obtain ⟨a, b⟩ := d
    by_cases h : x < a
    · simp [Memory.insert, h]
    · simp only [Memory.insert, h, if_false, List.mem_cons, ih]; tauto

theorem Memory.insert_pairwise (m : Memory) (x : Nat) (v : Byte) (hp : m.Pairwise (fun c d => c.1 < d.1))
    (hx : ∀ c ∈ m, c.1 ≠ x) : (Memory.insert m x v).Pairwise (fun c d => c.1 < d.1) := by
  induction m with
  | nil => simp [Memory.insert]
  | cons d rest ih =>
    obtain ⟨a, b⟩ := d
    have h1 := List.pairwise_cons.1 hp
    by_cases h : x < a
    · simp only [Memory.insert, h, if_true]
      refine List.pairwise_cons.2 ⟨?_, hp⟩
      intro c hc
      rcases List.mem_cons.1 hc with rfl | hc'
      · exact h
      · exact lt_trans h (h1.1 c hc')
    · simp only [Memory.insert, h, if_false]
      refine List.pairwise_cons.2 ⟨?_, ih h1.2 (fun c hc => hx c (by simp [hc]))⟩
      intro c hc
      rcases (Memory.mem_insert rest x v c).1 hc with rfl | hc'
      · have := hx (a, b) (by simp); simp only at this ⊢; omega
      · exact h1.1 c hc'

/-- A write keeps the canonical form. -/
theorem Memory.wf_write (m : Memory) (x : Nat) (v : Byte) (h : Memory.wf m = true) :
    Memory.wf (Memory.write m x v) = true := by
  rw [Memory.wf_iff] at h ⊢
  have he : (Memory.erase m x).Pairwise (fun c d => c.1 < d.1) := h.1.sublist (Memory.erase_sub m x)
  have hne : ∀ c ∈ Memory.erase m x, c.2 ≠ Memory.blank := fun c hc => h.2 c ((Memory.erase_sub m x).subset hc)
  unfold Memory.write
  split
  · exact ⟨he, hne⟩
  · next hv =>
    refine ⟨Memory.insert_pairwise _ x v he (Memory.erase_keys m x), ?_⟩
    intro c hc
    rcases (Memory.mem_insert _ x v c).1 hc with rfl | hc'
    · exact hv
    · exact hne c hc'

/-! ### Buffers -/

/-- Two buffer bytes at one host offset are the same byte of the same buffer (10_state.md R30). -/
theorem Buf.offset_inj {b b' : Buf} {j j' : Nat} (hj : j < b.size) (hj' : j' < b'.size)
    (h : b.base + j = b'.base + j') : b = b' ∧ j = j' := by
  cases b <;> cases b' <;> simp_all [Buf.base, Buf.size] <;> omega

/-- What a buffer byte reads after one buffer byte is written: pad bytes neither hold nor change anything. -/
theorem Memory.readBuf_writeBuf (m : Memory) (b b' : Buf) (j j' : Nat) (v : Byte) :
    Memory.readBuf (Memory.writeBuf m b j v) b' j' =
      if b' = b ∧ j' = j ∧ j < b.size then v else Memory.readBuf m b' j' := by
  unfold Memory.writeBuf Memory.readBuf
  by_cases hj : j < b.size
  · by_cases hj' : j' < b'.size
    · by_cases he : b' = b ∧ j' = j
      · obtain ⟨rfl, rfl⟩ := he; simp [hj]
      · have hne : b'.base + j' ≠ b.base + j := fun e => he (Buf.offset_inj hj' hj e)
        simp only [hj, hj', if_true, Memory.read_write_other _ _ hne]
        rw [if_neg]; tauto
    · have : ¬ (b' = b ∧ j' = j ∧ j < b.size) := by rintro ⟨rfl, rfl, h⟩; exact hj' h
      simp [hj', this]
  · simp [hj]

/-- What any offset reads after one buffer byte is written. -/
theorem Memory.read_writeBuf (m : Memory) (b : Buf) (j x : Nat) (v : Byte) :
    Memory.read (Memory.writeBuf m b j v) x =
      if x = b.base + j ∧ j < b.size then v else Memory.read m x := by
  unfold Memory.writeBuf
  by_cases hj : j < b.size
  · by_cases hx : x = b.base + j
    · subst hx; simp [hj]
    · simp [hj, hx, Memory.read_write_other _ _ hx]
  · simp [hj]

/-- What a buffer byte reads after a run of bytes is stored. -/
theorem Memory.readBuf_storeBytes (m : Memory) (b b' : Buf) (start : Nat) (val : Nat → Byte) (n j : Nat) :
    Memory.readBuf (Memory.storeBytes m b start val n) b' j =
      if b' = b ∧ start ≤ j ∧ j < start + n ∧ j < b.size then val (j - start) else Memory.readBuf m b' j := by
  induction n with
  | zero =>
    simp only [Memory.storeBytes]; rw [if_neg]; omega
  | succ n ih =>
    simp only [Memory.storeBytes, Memory.readBuf_writeBuf, ih]
    by_cases hb : b' = b
    · by_cases hj : j = start + n
      · subst hj
        by_cases hs : start + n < b.size
        · simp [hb, hs]
        · simp [hs]
      · by_cases hr : start ≤ j ∧ j < start + n ∧ j < b.size
        · have h2 : start ≤ j ∧ j < start + (n + 1) ∧ j < b.size := by omega
          simp [hb, hj, hr, h2]
        · have h2 : ¬ (start ≤ j ∧ j < start + (n + 1) ∧ j < b.size) := by omega
          simp [hb, hj, hr, h2]
    · simp [hb]

/-- What any offset reads after a run of bytes is stored: only the offsets of the stored bytes may differ. -/
theorem Memory.read_storeBytes (m : Memory) (b : Buf) (start : Nat) (val : Nat → Byte) (n x : Nat) :
    Memory.read (Memory.storeBytes m b start val n) x =
      if b.base + start ≤ x ∧ x < b.base + start + n ∧ x < b.base + b.size then val (x - (b.base + start))
      else Memory.read m x := by
  induction n with
  | zero =>
    simp only [Memory.storeBytes]; rw [if_neg]; omega
  | succ n ih =>
    simp only [Memory.storeBytes, Memory.read_writeBuf, ih]
    by_cases hx : x = b.base + (start + n)
    · subst hx
      by_cases hs : start + n < b.size
      · have h2 : b.base + start ≤ b.base + (start + n) ∧ b.base + (start + n) < b.base + start + (n + 1) ∧
            b.base + (start + n) < b.base + b.size := by omega
        have h3 : b.base + (start + n) - (b.base + start) = n := by omega
        simp only [hs, and_self, if_true, h2, h3]
      · have h2 : ¬ (b.base + (start + n) < b.base + b.size) := by omega
        simp [hs]
    · by_cases hr : b.base + start ≤ x ∧ x < b.base + start + n ∧ x < b.base + b.size
      · have h2 : b.base + start ≤ x ∧ x < b.base + start + (n + 1) ∧ x < b.base + b.size := by omega
        simp [hx, hr, h2]
      · have h2 : ¬ (b.base + start ≤ x ∧ x < b.base + start + (n + 1) ∧ x < b.base + b.size) := by omega
        simp [hx, hr, h2]

theorem Memory.wf_writeBuf (m : Memory) (b : Buf) (j : Nat) (v : Byte) (h : Memory.wf m = true) :
    Memory.wf (Memory.writeBuf m b j v) = true := by
  unfold Memory.writeBuf; split
  · exact Memory.wf_write _ _ _ h
  · exact h

theorem Memory.wf_storeBytes (m : Memory) (b : Buf) (start : Nat) (val : Nat → Byte) (n : Nat) (h : Memory.wf m = true) :
    Memory.wf (Memory.storeBytes m b start val n) = true := by
  induction n with
  | zero => exact h
  | succ n ih => exact Memory.wf_writeBuf _ _ _ _ ih

theorem Memory.wf_writeBufWord (m : Memory) (b : Buf) (w : Nat) (v : Word) (h : Memory.wf m = true) :
    Memory.wf (writeBufWord m b w v) = true := Memory.wf_storeBytes _ _ _ _ _ h

/-- The memory of the reset state has the canonical form. -/
theorem Memory.wf_reset : Memory.wf State.reset.mem = true := rfl

end Sys2Proof.Machine
end

