-- ==== Sys2Proof/Laws/Ops.lean ====
section
/-! SUPPORT. For each shared operation, once, everything it can do: polling, parsing, framing, the host port, the launch, the step. -/

namespace Sys2Proof.Machine

/-! ### Buffers under the frame builders -/

/-- Every buffer byte after an I-frame is put into TXF (40_frame_codec.md R120). -/
theorem packFrame_readBuf (cmd : Byte) (n : Nat) (s : State) (b : Buf) (j : Nat) (hn : n ≤ 12) :
    Memory.readBuf (packFrame cmd n s).mem b j =
      if b = .txf ∧ j = 0 then BitVec.ofNat 8 (n + 2)
      else if b = .txf ∧ j = 1 then cmd
      else if b = .txf ∧ 2 ≤ j ∧ j < n + 2 then s.pin (j - 2)
      else Memory.readBuf s.mem b j := by
  simp only [packFrame, Memory.readBuf_storeBytes, Memory.readBuf_writeBuf, Config.iframeHdr]
  by_cases hb : b = .txf
  · subst hb
    by_cases h2 : 2 ≤ j ∧ j < n + 2
    · have h3 : 2 ≤ j ∧ j < 2 + n ∧ j < Buf.txf.size := by simp only [Buf.size]; omega
      have h0 : j ≠ 0 := by omega
      have h1 : j ≠ 1 := by omega
      simp [h2, h3, h0, h1]
    · have h3 : ¬ (2 ≤ j ∧ j < 2 + n ∧ j < Buf.txf.size) := by omega
      by_cases h0 : j = 0
      · subst h0; simp [Buf.size]
      · by_cases h1 : j = 1
        · subst h1; simp [Buf.size]
        · simp [h2, h3, h0, h1]
  · simp [hb]

/-- An I-frame put into TXF changes no host offset outside its own bytes. -/
theorem packFrame_read (cmd : Byte) (n : Nat) (s : State) (x : Nat) (hx : ¬ (0x50 ≤ x ∧ x < 0x50 + (n + 2))) :
    Memory.read (packFrame cmd n s).mem x = Memory.read s.mem x := by
  simp only [packFrame, Memory.read_storeBytes, Memory.read_writeBuf]
  rw [if_neg (by simp only [Buf.base, Config.iframeHdr]; omega), if_neg (by simp only [Buf.base]; omega),
    if_neg (by simp only [Buf.base]; omega)]

/-- Every buffer byte after the dummy fill (41_transport.md R147). -/
theorem dummyFill_readBuf (c : Nat) (s : State) (b : Buf) (j : Nat) :
    Memory.readBuf (dummyFill c s).mem b j =
      if b = .txf ∧ j < c ∧ j < 26 then 0xFF#8 else Memory.readBuf s.mem b j := by
  simp only [dummyFill, Memory.readBuf_storeBytes, Config.dummyByte]
  by_cases hb : b = .txf
  · subst hb; simp [Buf.size]
  · simp [hb]

/-- The dummy fill changes no host offset outside TXF[0..c-1]. -/
theorem dummyFill_read (c : Nat) (s : State) (x : Nat) (hx : ¬ (0x50 ≤ x ∧ x < 0x50 + c)) :
    Memory.read (dummyFill c s).mem x = Memory.read s.mem x := by
  simp only [dummyFill, Memory.read_storeBytes]
  rw [if_neg (by simp only [Buf.base]; omega)]

/-! ### ParseAck -/

/-- ParseAck gives ACKLEN exactly on the lengths of 40_frame_codec.md R124. -/
theorem parseAck_eq_none (c : Nat) (s : State) :
    parseAck c s = none ↔ (s.rxf 0).toNat < 3 ∨ c < (s.rxf 0).toNat - 3 := by
  simp only [parseAck, Config.ackHdr]; split_ifs <;> simp_all

/-- What a successful ParseAck answers (40_frame_codec.md R124). -/
theorem parseAck_eq_some (c : Nat) (s t : State) (h : parseAck c s = some t) :
    3 ≤ (s.rxf 0).toNat ∧ (s.rxf 0).toNat - 3 ≤ c ∧
      t = { s with
        ackinfo := ⟨BitVec.ofNat 5 ((s.rxf 0).toNat - 3), s.rxf 2, s.rxf 1, s.rxf 0⟩
        mem := Memory.storeBytes s.mem .apay 0 (fun j => s.rxf (3 + j)) ((s.rxf 0).toNat - 3) } := by
  simp only [parseAck, Config.ackHdr] at h
  split_ifs at h with h1 h2
  exact ⟨by omega, by omega, (Option.some.inj h).symm⟩

/-- A successful ParseAck writes APAY only, so RXF reads as before. -/
theorem storeApay_rxf (m : Memory) (val : Nat → Byte) (n j : Nat) :
    Memory.readBuf (Memory.storeBytes m .apay 0 val n) .rxf j = Memory.readBuf m .rxf j := by
  simp [Memory.readBuf_storeBytes]

/-! ### Polling -/

/-- The three ends of a poll step (41_transport.md R141). -/
theorem pollStep_cases (target : Bool) (n : Nat) (onOK onTimeout : State → State) (s : State) :
    (s.busyNext = target ∧ pollStep target n onOK onTimeout s = onOK (sampleBusy s)) ∨
    (s.busyNext ≠ target ∧ s.k + 1 < n ∧
      pollStep target n onOK onTimeout s = tick { sampleBusy s with k := s.k + 1 }) ∨
    (s.busyNext ≠ target ∧ n ≤ s.k + 1 ∧
      pollStep target n onOK onTimeout s = onTimeout (tick { sampleBusy s with k := s.k + 1 })) := by
  unfold pollStep
  by_cases hb : s.busyNext = target
  · simp [hb]
  · by_cases hn : n ≤ s.k + 1
    · simp [hb, hn]
    · simp [hb, hn]; omega

/-- A wait always takes at least one sample (00_scope.md R17). -/
theorem pollBound_pos (p : Params) (tc : TimeoutClass) : 0 < pollBound p tc := by
  unfold pollBound; omega

/-! ### The host port -/

/-- The ends of a host write, in the order of 60_exceptions.md R236. -/
theorem hostWrite_cases (addr : BitVec 8) (v : Word) (s : State) :
    (hostReg addr = none ∧ hostWrite addr v s = .next (respond (.write false) s)) ∨
    ∃ r, hostReg addr = some r ∧
      ((r.readOnly = true ∧ hostWrite addr v s = .next (respond (.write false) s)) ∨
       (r.readOnly = false ∧ s.fatal = true ∧ hostWrite addr v s = .next (respond (.write true) s)) ∨
       (r.readOnly = false ∧ s.fatal = false ∧ s.busy = true ∧
          hostWrite addr v s = .next (raiseFatal .busy (respond (.write true) s))) ∨
       (r = .opword ∧ s.fatal = false ∧ s.busy = false ∧ hostWrite addr v s = launch v (respond (.write true) s)) ∨
       (r.readOnly = false ∧ r ≠ .opword ∧ s.fatal = false ∧ s.busy = false ∧
          hostWrite addr v s = .next (writeReg r v (respond (.write true) s)))) := by
  unfold hostWrite
  cases h : hostReg addr with
  | none => simp
  | some r =>
    right; refine ⟨r, rfl, ?_⟩
    by_cases h1 : r.readOnly = true
    · simp [h1]
    · by_cases h2 : s.fatal = true
      · simp [h1, h2]
      · by_cases h3 : s.busy = true
        · simp [h1, h2, h3]
        · by_cases h4 : r = .opword
          · subst h4; simp [h2, h3, HostReg.readOnly]
          · simp [h1, h2, h3, h4]

/-- OPWORD is at offset 0 (10_state.md R30). -/
@[simp] theorem hostReg_opword : hostReg 0x00#8 = some .opword := by decide

/-- A write to OPWORD of a block that is neither BUSY nor FATAL is a launch (20_memory.md R75). -/
theorem hostWrite_opword (v : Word) (s : State) (hf : s.fatal = false) (hb : s.busy = false) :
    hostWrite 0x00#8 v s = launch v (respond (.write true) s) := by
  simp [hostWrite, HostReg.readOnly, hf, hb]

/-- The launch of a legal word (30_encoding.md R92). -/
theorem launch_legal {v : Word} {i : Instr} (s : State) (h : decode v = .ok i) : launch v s = exec i (latchWord v s) := by
  simp [launch, h]

/-- The launch of an illegal word (30_encoding.md R92; 60_exceptions.md R231). -/
theorem launch_illegal {v : Word} {e : DecodeError} (s : State) (h : decode v = .error e) :
    launch v s = .next (raiseFatal .illegalOp (acceptWord v s)) := by
  simp [launch, h]

/-! ### The step -/

/-- The ends of a step: which move was at the head of the agenda. -/
theorem step_cases (s : State) :
    (s.agenda = [] ∧ s.st = .fault ∧ step s = .fault (.stopped s.fcause)) ∨
    (s.agenda = [] ∧ s.st ≠ .fault ∧ step s = .next (fsmStep s)) ∨
    (∃ rest, s.agenda = .fsm :: rest ∧ step s = .next (fsmStep { s with agenda := rest })) ∨
    (∃ addr rest, s.agenda = .host (.read addr) :: rest ∧ step s = .next (hostRead addr { s with agenda := rest })) ∨
    (∃ addr v rest, s.agenda = .host (.write addr v) :: rest ∧ step s = hostWrite addr v { s with agenda := rest }) ∨
    (∃ rest, s.agenda = .waitDone :: rest ∧ step s = .next (waitDoneTurn { s with agenda := rest })) ∨
    (∃ rest, s.agenda = .rst :: rest ∧ step s = .next (blockReset { s with agenda := rest })) := by
  unfold step
  cases h : s.agenda with
  | nil => by_cases hf : s.st = .fault <;> simp [hf]
  | cons m rest =>
    cases m with
    | fsm => simp
    | host a => cases a <;> simp [hostAccess]
    | waitDone => simp
    | rst => simp

end Sys2Proof.Machine
end

