-- ==== Sys2Proof/Laws/Fsm.lean ====
section
/-! SUPPORT. The FSM: its step in each state, and the fields that no FSM step writes. -/

namespace Sys2Proof.Machine

section
variable {s : State}
theorem fsmStep_idle (h : s.st = .idle) : fsmStep s = s := by simp [fsmStep, h]
theorem fsmStep_fault (h : s.st = .fault) : fsmStep s = s := by simp [fsmStep, h]
theorem fsmStep_sWaitIdle (h : s.st = .sWaitIdle) : fsmStep s = stepSWaitIdle s := by simp [fsmStep, h]
theorem fsmStep_sWaitAccept (h : s.st = .sWaitAccept) : fsmStep s = stepSWaitAccept s := by simp [fsmStep, h]
theorem fsmStep_sXfer (h : s.st = .sXfer) : fsmStep s = stepSXfer s := by simp [fsmStep, h]
theorem fsmStep_sWaitDone (h : s.st = .sWaitDone) : fsmStep s = stepSWaitDone s := by simp [fsmStep, h]
theorem fsmStep_rWaitReady (h : s.st = .rWaitReady) : fsmStep s = stepRWaitReady s := by simp [fsmStep, h]
theorem fsmStep_rXferLen (h : s.st = .rXferLen) : fsmStep s = stepRXferLen s := by simp [fsmStep, h]
theorem fsmStep_rXfer (h : s.st = .rXfer) : fsmStep s = stepRXfer s := by simp [fsmStep, h]
theorem fsmStep_rWaitDone (h : s.st = .rWaitDone) : fsmStep s = stepRWaitDone s := by simp [fsmStep, h]
theorem fsmStep_wWaitHigh (h : s.st = .wWaitHigh) : fsmStep s = stepWWaitHigh s := by simp [fsmStep, h]
theorem fsmStep_dly (h : s.st = .dly) : fsmStep s = stepDly s := by simp [fsmStep, h]
theorem fsmStep_smp (h : s.st = .smp) : fsmStep s = stepSmp s := by simp [fsmStep, h]
end

/-- A state with the same fields that no step of the FSM writes: the parameters, OPWORD and S.op, FATAL and FCAUSE, CONFIG, the
frequency registers, and the host's side. -/
def SameFixed (s t : State) : Prop :=
  t.params = s.params ∧ t.opword = s.opword ∧ t.op = s.op ∧ t.fatal = s.fatal ∧ t.fcause = s.fcause ∧ t.config = s.config ∧
    t.freq = s.freq ∧ t.fcint = s.fcint ∧ t.fcfrac = s.fcfrac ∧ t.dreg0 = s.dreg0 ∧ t.dreg1 = s.dreg1 ∧
    t.agenda = s.agenda ∧ t.resps = s.resps

/-- What a successful or failed parse step answers (42_command_engine.md R183). -/
theorem parseStep_cases (s : State) :
    (parseAck (s.cap - 3) s = none ∧ parseStep s = finish .acklen s) ∨
    (∃ t, parseAck (s.cap - 3) s = some t ∧
      parseStep s = finish (if s.rxf 1 = 0#8 then .ok else .ackerr)
        (flagAnomaly { t with drvstate := ⟨true, s.rxf 1, s.rxf 2⟩ })) := by
  unfold parseStep
  simp only [Config.ackHdr]
  cases h : parseAck (s.cap - 3) s with
  | none => simp
  | some t =>
    right; refine ⟨t, rfl, ?_⟩
    obtain ⟨_, _, ht⟩ := parseAck_eq_some _ _ _ h
    have hr : ∀ j, t.rxf j = s.rxf j := by intro j; subst ht; exact storeApay_rxf ..
    simp only [hr]
    split <;> simp_all

theorem parseStep_fixed (s : State) : SameFixed s (parseStep s) := by
  rcases parseStep_cases s with ⟨_, h⟩ | ⟨t, ht, h⟩
  · rw [h]; simp [SameFixed]
  · obtain ⟨_, _, rfl⟩ := parseAck_eq_some _ _ _ ht
    rw [h]; simp [SameFixed]

theorem recvDone_fixed (s : State) : SameFixed s (recvDone s) := by
  unfold recvDone; split
  · exact parseStep_fixed s
  · simp [SameFixed]

theorem sendDone_fixed (s : State) : SameFixed s (sendDone s) := by
  unfold sendDone; split <;> simp [SameFixed]

theorem pollStep_fixed (target : Bool) (n : Nat) (onOK onTimeout : State → State) (s : State)
    (h1 : ∀ t, SameFixed t (onOK t)) (h2 : ∀ t, SameFixed t (onTimeout t)) :
    SameFixed s (pollStep target n onOK onTimeout s) := by
  rcases pollStep_cases target n onOK onTimeout s with ⟨_, h⟩ | ⟨_, _, h⟩ | ⟨_, _, h⟩ <;> rw [h]
  · simpa [SameFixed] using h1 (sampleBusy s)
  · simp [SameFixed]
  · simpa [SameFixed] using h2 (tick { sampleBusy s with k := s.k + 1 })

/-- No FSM step writes the parameters, the latched word, CONFIG, the frequency registers, FATAL, FCAUSE or the host's side. -/
theorem fsmStep_fixed (s : State) : SameFixed s (fsmStep s) := by
  cases h : s.st
  case idle => simp [fsmStep, h, SameFixed]
  case fault => simp [fsmStep, h, SameFixed]
  case sWaitIdle => rw [fsmStep_sWaitIdle h]; exact pollStep_fixed _ _ _ _ _ (by simp [SameFixed]) (by simp [SameFixed])
  case sWaitAccept => rw [fsmStep_sWaitAccept h]; exact pollStep_fixed _ _ _ _ _ (by simp [SameFixed]) (by simp [SameFixed])
  case sXfer => rw [fsmStep_sXfer h]; unfold stepSXfer; simp only []; split_ifs <;> simp [SameFixed]
  case sWaitDone =>
    rw [fsmStep_sWaitDone h]
    exact pollStep_fixed _ _ _ _ _ (fun t => by simpa [SameFixed] using sendDone_fixed (csRelease t)) (by simp [SameFixed])
  case rWaitReady => rw [fsmStep_rWaitReady h]; exact pollStep_fixed _ _ _ _ _ (by simp [SameFixed]) (by simp [SameFixed])
  case rXferLen => rw [fsmStep_rXferLen h]; unfold stepRXferLen; simp only []; split_ifs <;> simp [SameFixed]
  case rXfer => rw [fsmStep_rXfer h]; unfold stepRXfer; simp only []; split_ifs <;> simp [SameFixed]
  case rWaitDone =>
    rw [fsmStep_rWaitDone h]
    exact pollStep_fixed _ _ _ _ _ (fun t => by simpa [SameFixed] using recvDone_fixed (csRelease t)) (by simp [SameFixed])
  case wWaitHigh => rw [fsmStep_wWaitHigh h]; exact pollStep_fixed _ _ _ _ _ (by simp [SameFixed]) (by simp [SameFixed])
  case dly => rw [fsmStep_dly h]; unfold stepDly; simp only []; split_ifs <;> simp [SameFixed]
  case smp => rw [fsmStep_smp h]; simp [stepSmp, SameFixed]

/-- Runs of FSM steps compose. -/
theorem fsmRun_add (m n : Nat) (s : State) : fsmRun (m + n) s = fsmRun n (fsmRun m s) := by
  induction m generalizing s with
  | zero => simp [fsmRun]
  | succ m ih => rw [Nat.succ_add]; simp [fsmRun, ih]

/-- In IDLE a run of FSM steps changes nothing. -/
theorem fsmRun_idle (n : Nat) (s : State) (h : s.st = .idle) : fsmRun n s = s := by
  induction n with
  | zero => rfl
  | succ n ih => simp [fsmRun, fsmStep_idle h, ih]

/-- A legal word launched, whose launch part answers a next state, and then run. -/
theorem afterLaunch_eq {v : Word} {i : Instr} {s t : State} (n : Nat) (hd : decode v = .ok i)
    (he : exec i (latchWord v s) = .next t) : afterLaunch v n s = fsmRun n t := by
  simp only [afterLaunch, launch_legal s hd, he]

/-- One whole ISRDY: the launch and its sample step (41_transport.md R170). -/
theorem afterLaunch_isrdy {v : Word} (s : State) (hd : decode v = .ok .isrdy) :
    afterLaunch v 1 s = { s with
      opword := v, op := v, anomaly := false, rdy := !s.busyNext, st := .idle, done := true, result := .ok,
      busyIn := s.busyIn.tail, draws := s.draws + 1, trace := s.trace ++ [Event.sample s.busyNext] } := by
  rw [afterLaunch_eq 1 hd rfl]; rfl

end Sys2Proof.Machine
end

