-- ==== Sys2Proof/Laws/PerInstr.lean ====
section
/-! SUPPORT. The per-instruction family RsvClear: an encoded operation never sets the reserved bits [31:29] (30_encoding.md R90, R96),
whatever its operands. -/

namespace Sys2Proof.Laws.RsvClear

/-- The operation word of `i` has bits [31:29] clear (30_encoding.md R90). -/
def Statement (i : Instr) : Prop := fieldRsv (encode i) = 0#3

theorem pack (cmd : Byte) (n : Nat) : Statement (.pack cmd n) := fieldRsv_assembleFO ..
theorem parse (cap : Nat) : Statement (.parse cap) := fieldRsv_assembleFO ..
theorem send (n : Nat) : Statement (.send n) := fieldRsv_assembleFO ..
theorem recv (cap : Nat) (tc : TimeoutClass) : Statement (.recv cap tc) := fieldRsv_assembleFO ..
theorem waitrdy (tc : TimeoutClass) : Statement (.waitrdy tc) := fieldRsv_assembleFO ..
theorem isrdy : Statement .isrdy := fieldRsv_assembleFO ..
theorem delay (ms : Nat) : Statement (.delay ms) := fieldRsv_assembleFD ..
theorem xact (cmd : Byte) (n : Nat) (tc : TimeoutClass) (na : Bool) (apl : Nat) : Statement (.xact cmd n tc na apl) := fieldRsv_assembleFO ..
theorem sendnb (cmd : Byte) (n : Nat) : Statement (.sendnb cmd n) := fieldRsv_assembleFO ..
theorem readack (cap : Nat) (tc : TimeoutClass) : Statement (.readack cap tc) := fieldRsv_assembleFO ..
theorem hz2reg : Statement .hz2reg := fieldRsv_assembleFO ..
theorem reg2hz : Statement .reg2hz := fieldRsv_assembleFO ..
theorem store : Statement .store := fieldRsv_assembleFO ..
theorem restore : Statement .restore := fieldRsv_assembleFO ..

end Sys2Proof.Laws.RsvClear
end

