-- ==== Sys2Proof/Tests/Slice0.lean ====
section
/-! SUPPORT. Tests. Words are written out field by field from the encoding of 30_encoding.md R90 (FO: RSV CAP APL NA TC CMD N OP); one-step
results are those of 95_test_vectors.md (C1, T20, E3, Q5, …). `witness_<Obligation>` shows a state and operands that meet every hypothesis
of that statement, one line per clause and at the ends of the ranges. -/

open Sys2Proof Sys2Proof.Machine

namespace Sys2Proof.Tests

/-! ### Helpers -/

/-- The state an outcome carries; the reset state when there is none. -/
def nextOf : Outcome → State
  | .next t => t
  | .fault _ => State.reset
  | .refused _ => State.reset

/-- The outcome is a next state. -/
def isNext : Outcome → Bool
  | .next _ => true
  | .fault _ => false
  | .refused _ => false

/-- Cells for a run of non-zero bytes. -/
def cells (start : Nat) : List Byte → Memory
  | [] => []
  | b :: rest => (start, b) :: cells (start + 1) rest

/-- A state whose buffers hold the given cells. -/
def withMem (m : Memory) : State := { State.reset with mem := m }

/-- Parameters under which every wait has one sample. -/
def oneSample : Params := { Params.default with pollUs := 100000000 }

/-- Parameters with N_NOTX = 2 and N_INIT = 5. -/
def coarse : Params := { Params.default with pollUs := 1000000 }

/-- A block whose host is about to write a word to OPWORD. -/
def aboutToWrite (v : Word) : State := { State.reset with agenda := [.host (.write 0x00#8 v)] }

/-- A block in FAULT after a busy write. -/
def faulted : State :=
  { State.reset with st := .fault, fatal := true, fcause := .busy, result := .fatal, done := true }

/-- The launch part of a word on a state. -/
def launched (v : Word) (s : State) : State := nextOf (launch v s)

/-- The decoder answers an error. -/
def rejects (w : Word) (e : DecodeError) : Bool :=
  match decode w with
  | .ok _ => false
  | .error x => decide (x = e)

/-- The decoder answers this operation. -/
def reads (w : Word) (i : Instr) : Bool := decide (decodeTableWord 32 w.toNat = some i)

/-! ### WellFormed refuses an operand that does not fit its field -/

theorem test_wf_pack_n : (Instr.pack 0x21#8 15).wellFormed = true ∧ (Instr.pack 0x21#8 16).wellFormed = false := by decide
theorem test_wf_parse_cap : (Instr.parse 31).wellFormed = true ∧ (Instr.parse 32).wellFormed = false := by decide
theorem test_wf_send_n : (Instr.send 15).wellFormed = true ∧ (Instr.send 16).wellFormed = false := by decide
theorem test_wf_recv_cap : (Instr.recv 31 .tx).wellFormed = true ∧ (Instr.recv 32 .tx).wellFormed = false := by decide
theorem test_wf_delay_ms : (Instr.delay 65535).wellFormed = true ∧ (Instr.delay 65536).wellFormed = false := by decide
theorem test_wf_xact_n : (Instr.xact 0#8 15 .tx true 31).wellFormed = true ∧ (Instr.xact 0#8 16 .tx true 31).wellFormed = false := by decide
theorem test_wf_xact_apl : (Instr.xact 0#8 15 .tx true 32).wellFormed = false := by decide
theorem test_wf_sendnb_n : (Instr.sendnb 0#8 15).wellFormed = true ∧ (Instr.sendnb 0#8 16).wellFormed = false := by decide
theorem test_wf_readack_cap : (Instr.readack 31 .tx).wellFormed = true ∧ (Instr.readack 32 .tx).wellFormed = false := by decide

/-! ### Every constructor's decoding, the word written out from R90 and R93 -/

theorem test_decode_pack :
    reads (0b000#3 ++ 0b00000#5 ++ 0b00000#5 ++ 0b0#1 ++ 0b00#2 ++ 0b00100001#8 ++ 0b0101#4 ++ 0b0001#4) (.pack 0x21#8 5) = true := by decide
theorem test_decode_parse :
    reads (0b000#3 ++ 0b10111#5 ++ 0b00000#5 ++ 0b0#1 ++ 0b00#2 ++ 0b00000000#8 ++ 0b0000#4 ++ 0b0010#4) (.parse 23) = true := by decide
theorem test_decode_send :
    reads (0b000#3 ++ 0b00000#5 ++ 0b00000#5 ++ 0b0#1 ++ 0b00#2 ++ 0b00000000#8 ++ 0b0111#4 ++ 0b0011#4) (.send 7) = true := by decide
theorem test_decode_recv :
    reads (0b000#3 ++ 0b11010#5 ++ 0b00000#5 ++ 0b0#1 ++ 0b10#2 ++ 0b00000000#8 ++ 0b0000#4 ++ 0b0100#4) (.recv 26 .txrx) = true := by decide
theorem test_decode_waitrdy :
    reads (0b000#3 ++ 0b00000#5 ++ 0b00000#5 ++ 0b0#1 ++ 0b11#2 ++ 0b00000000#8 ++ 0b0000#4 ++ 0b0101#4) (.waitrdy .init) = true := by decide
theorem test_decode_isrdy :
    reads (0b000#3 ++ 0b00000#5 ++ 0b00000#5 ++ 0b0#1 ++ 0b00#2 ++ 0b00000000#8 ++ 0b0000#4 ++ 0b0110#4) .isrdy = true := by decide
theorem test_decode_delay :
    reads (0b000#3 ++ 0b00000#5 ++ 0b0000000001100100#16 ++ 0b0000#4 ++ 0b0111#4) (.delay 100) = true := by decide
theorem test_decode_xact :
    reads (0b000#3 ++ 0b00000#5 ++ 0b00101#5 ++ 0b0#1 ++ 0b01#2 ++ 0b00100001#8 ++ 0b0011#4 ++ 0b1000#4)
      (.xact 0x21#8 3 .tx false 5) = true := by decide
theorem test_decode_xact_na :
    reads (0b000#3 ++ 0b00000#5 ++ 0b00000#5 ++ 0b1#1 ++ 0b00#2 ++ 0b00010000#8 ++ 0b0000#4 ++ 0b1000#4)
      (.xact 0x10#8 0 .notx true 0) = true := by decide
theorem test_decode_sendnb :
    reads (0b000#3 ++ 0b00000#5 ++ 0b00000#5 ++ 0b0#1 ++ 0b00#2 ++ 0b00110000#8 ++ 0b0000#4 ++ 0b1001#4) (.sendnb 0x30#8 0) = true := by decide
theorem test_decode_readack :
    reads (0b000#3 ++ 0b11010#5 ++ 0b00000#5 ++ 0b0#1 ++ 0b01#2 ++ 0b00000000#8 ++ 0b0000#4 ++ 0b1010#4) (.readack 26 .tx) = true := by decide
theorem test_decode_hz2reg : reads 0x0000000B#32 .hz2reg = true := by decide
theorem test_decode_reg2hz : reads 0x0000000C#32 .reg2hz = true := by decide
theorem test_decode_store : reads 0x0000000D#32 .store = true := by decide
theorem test_decode_restore : reads 0x0000000E#32 .restore = true := by decide

/-- F1: the illegal words, each by its reason. -/
theorem test_decode_illegal :
    rejects 0x00000000#32 .illegalOp = true ∧ rejects 0x0000000F#32 .illegalOp = true ∧ rejects 0x20000001#32 .reservedBits = true ∧
    rejects 0x80000006#32 .reservedBits = true ∧ rejects 0xFFFFFFFF#32 .reservedBits = true := by decide

/-- R99: the encodings of the assembler's example lines. -/
theorem test_encode_examples :
    encode (.xact 0x21#8 5 .notx false 5) = 0x00282158#32 ∧ encode (.delay 100) = 0x00006407#32 ∧
    encode (.readack 26 .tx) = 0x1A01000A#32 ∧ encode (.pack 0x21#8 5) = 0x00002151#32 := by decide

/-! ### One step of each operation (95_test_vectors.md) -/

/-- C1. -/
theorem test_pack_c1 :
    let t := launched 0x00002151#32 (withMem (cells 0x40 [1#8, 2#8, 3#8, 4#8, 5#8] ++ cells 0x50 (List.replicate 26 0xEE#8)))
    (List.range 8).map t.txf = [0x07#8, 0x21#8, 1#8, 2#8, 3#8, 4#8, 5#8, 0xEE#8] ∧ statusWord t = 0x000000A0#32 := by decide
/-- C4. -/
theorem test_pack_c4 :
    let t := launched 0x000021D1#32 (withMem (cells 0x50 [0xEE#8]))
    t.txf 0 = 0xEE#8 ∧ statusWord t = 0x000405EF#32 ∧ t.opword = 0x000021D1#32 := by decide
/-- C16. -/
theorem test_parse_c16 :
    let t := launched 0x17000002#32
      (withMem [(0x70, 8#8), (0x72, 2#8), (0x73, 0xFE#8), (0x74, 0xFD#8), (0x75, 0xFC#8), (0x76, 0xFB#8), (0x77, 0xFA#8)])
    ackinfoWord t.ackinfo = 0x05020008#32 ∧ (List.range 6).map t.apay = [0xFE#8, 0xFD#8, 0xFC#8, 0xFB#8, 0xFA#8, 0#8] ∧
    statusWord t = 0x000000A0#32 ∧ t.drvstate.valid = false := by decide
/-- C12. -/
theorem test_parse_c12 :
    let t := launched 0x05000002#32 (withMem (cells 0x70 [9#8, 0x11#8, 0x22#8, 0x30#8]))
    ackinfoWord t.ackinfo = 0#32 ∧ t.apay 0 = 0#8 ∧ statusWord t = 0x000002A0#32 := by decide
/-- T1: the launch, then the third exchange of a SEND of seven bytes. -/
theorem test_send_launch :
    let t := launched 0x00000073#32 State.reset
    t.st = .sWaitIdle ∧ t.len = 7 ∧ t.k = 0 ∧ statusWord t = 0x00000091#32 := by decide
theorem test_send_exchange :
    let t := fsmStep { withMem (cells 0x50 [0x07#8, 0x21#8, 0x01#8]) with
      st := .sXfer, op := 0x00000073#32, len := 7, i := 2, csN := false, xchgIn := [(0x55#8, false)] }
    t.trace = [.xfer 0x01#8 0x55#8] ∧ t.i = 3 ∧ t.st = .sXfer ∧ t.mem = cells 0x50 [0x07#8, 0x21#8, 0x01#8] := by decide
/-- T10: the dummy fill, then the length byte over the capacity. -/
theorem test_recv_fill :
    let t := launched 0x05000004#32 (withMem (cells 0x50 [0x07#8, 0x21#8, 1#8, 2#8, 3#8, 4#8, 5#8]))
    (List.range 8).map t.txf = [0xFF#8, 0xFF#8, 0xFF#8, 0xFF#8, 0xFF#8, 4#8, 5#8, 0#8] ∧ t.cap = 5 ∧ t.st = .rWaitReady := by decide
theorem test_recv_too_long :
    let t := fsmStep { withMem [(0x71, 0x77#8)] with st := .rXferLen, op := 0x05000004#32, cap := 5, csN := false, xchgIn := [(6#8, false)] }
    t.rxf 0 = 6#8 ∧ t.rxf 1 = 0x77#8 ∧ t.trace = [.xfer 0xFF#8 6#8, .deselect] ∧ statusWord t = 0x000002A0#32 := by decide
/-- T17: a low sample costs one tick, and the first high one ends the wait. -/
theorem test_waitrdy_low :
    let t := fsmStep { launched 0x00030005#32 State.reset with busyIn := [false] }
    t.trace = [.sample false, .tick] ∧ t.k = 1 ∧ t.st = .wWaitHigh := by decide
theorem test_waitrdy_high :
    let t := fsmStep { launched 0x00030005#32 State.reset with busyIn := [true] }
    t.trace = [.sample true] ∧ statusWord t = 0x000000A0#32 := by decide
/-- T20, T21. -/
theorem test_isrdy_low :
    let t := launched 0x00000006#32 { State.reset with busyIn := [false] }
    statusWord t = 0x0000009B#32 ∧ statusWord (fsmStep t) = 0x000010A0#32 := by decide
theorem test_isrdy_high :
    let t := launched 0x00000006#32 { State.reset with busyIn := [true], rdy := true }
    t.rdy = false ∧ statusWord (fsmStep t) = 0x000000A0#32 ∧ (fsmStep t).trace = [.sample true] := by decide
/-- T22 and T24, T23. -/
theorem test_delay :
    statusWord (launched 0x00006407#32 State.reset) = 0x0000009A#32 ∧ (launched 0x00006407#32 State.reset).d = 1000 ∧
    (launched 0x00FFFF07#32 State.reset).d = 655350 := by decide
theorem test_delay_zero :
    statusWord (launched 0x00000007#32 State.reset) = 0x000000A0#32 ∧ (launched 0x00000007#32 State.reset).trace = [] := by decide
/-- E10 and E11: APL is checked with an acknowledgement only. -/
theorem test_xact_apl :
    statusWord (launched 0x00C02108#32 State.reset) = 0x000405EF#32 ∧ (launched 0x00FC2108#32 State.reset).st = .sWaitIdle := by decide
/-- E3: the last step of XACT 0x22, 1, NOTX, 2 with a reply of four bytes. -/
theorem test_xact_anomaly :
    let t := fsmStep { withMem [(0x70, 4#8), (0x72, 2#8), (0x73, 0x99#8)] with
      st := .rWaitDone, opword := 0x00102218#32, op := 0x00102218#32, cap := 26, lenByte := 4#8, csN := false, busyIn := [true] }
    statusWord t = 0x000008A0#32 ∧ drvstateWord t.drvstate = 0x00010002#32 ∧ ackinfoWord t.ackinfo = 0x01020004#32 ∧
    t.apay 0 = 0x99#8 ∧ t.trace = [.sample true, .deselect] := by decide
/-- E12. -/
theorem test_sendnb_launch :
    let t := launched 0x00003009#32 State.reset
    t.txf 0 = 2#8 ∧ t.txf 1 = 0x30#8 ∧ t.len = 2 ∧ t.st = .sWaitIdle := by decide
theorem test_sendnb_end :
    let t := fsmStep { State.reset with st := .sWaitDone, op := 0x00003009#32, len := 2, csN := false, busyIn := [true] }
    t.trace = [.sample true, .deselect] ∧ statusWord t = 0x000000A0#32 := by decide
/-- E13: the last step of READACK 26, TX on the reply 03 2A 01; and E15. -/
theorem test_readack_ackerr :
    let t := fsmStep { withMem [(0x70, 3#8), (0x71, 0x2A#8), (0x72, 1#8)] with
      st := .rWaitDone, op := 0x1A01000A#32, cap := 26, lenByte := 3#8, csN := false, busyIn := [true] }
    statusWord t = 0x000003A0#32 ∧ drvstateWord t.drvstate = 0x00012A01#32 ∧ ackinfoWord t.ackinfo = 0x00012A03#32 := by decide
theorem test_readack_bad_cap : statusWord (launched 0x0200000A#32 State.reset) = 0x000505EF#32 := by decide
/-- Q5 and Q18. -/
theorem test_hz2reg_q5 :
    let t := launched 0x0000000B#32 { State.reset with freq := 902200000#32 }
    t.fcint = 32#32 ∧ t.fcfrac = 0x581DA#32 := by decide
theorem test_hz2reg_q18 :
    statusWord (launched 0x0000000B#32 { State.reset with freq := 774999999#32 }) = 0x000605EF#32 ∧
    statusWord (launched 0x0000000B#32 { State.reset with freq := 1100000001#32 }) = 0x000605EF#32 := by decide
/-- Q5, Q15, Q16 and Q17. -/
theorem test_reg2hz_q5_q16 :
    (launched 0x0000000C#32 { State.reset with fcint := 32#32, fcfrac := 0x581DA#32 }).freq = 902199952#32 ∧
    (launched 0x0000000C#32 { State.reset with fcfrac := 0x40000#32 }).freq = 13800000#32 ∧
    (launched 0x0000000C#32 { State.reset with fcint := 63#32, fcfrac := 0x7FFFF#32 }).freq = 1766399947#32 := by decide
theorem test_reg2hz_q17 :
    statusWord (launched 0x0000000C#32 { State.reset with fcint := 64#32 }) = 0x000705EF#32 ∧
    statusWord (launched 0x0000000C#32 { State.reset with fcfrac := 0x80000#32 }) = 0x000705EF#32 := by decide
/-- Q5 in both layouts, and Q21. -/
theorem test_store_q5 :
    let b := launched 0x0000000D#32 { State.reset with fcint := 32#32, fcfrac := 0x581DA#32 }
    let a := launched 0x0000000D#32 { State.reset with
      params := { Params.default with hasLayoutA := true }, config := ⟨.a, .full⟩, fcint := 32#32, fcfrac := 0x581DA#32 }
    (b.dreg0, b.dreg1) = (0x2005#16, 0x81DA#16) ∧ (a.dreg0, a.dreg1) = (0x03DA#16, 0x82C0#16) := by decide
theorem test_store_q21 : statusWord (launched 0x0000000D#32 { State.reset with config := ⟨.a, .full⟩ }) = 0x000805EF#32 := by decide
/-- Q22 and Q23. -/
theorem test_restore_q22_q23 :
    let b := launched 0x0000000E#32 { State.reset with dreg0 := 0x2005#16, dreg1 := 0x81DA#16 }
    let a := launched 0x0000000E#32 { State.reset with
      params := { Params.default with hasLayoutA := true }, config := ⟨.a, .full⟩, dreg0 := 0xFDDA#16, dreg1 := 0x82C0#16 }
    (b.fcint, b.fcfrac) = (32#32, 360922#32) ∧ (a.fcint, a.fcfrac) = (32#32, 360922#32) := by decide
theorem test_restore_q21 : statusWord (launched 0x0000000E#32 { State.reset with config := ⟨.a, .full⟩ }) = 0x000805EF#32 := by decide

/-! ### The host port and the host's own programs -/

/-- F2 and F7: a write to FREQ in R_XFER, then reset. -/
theorem test_busy_write :
    let s : State := { State.reset with st := .rXfer, opword := 0x1A000004#32, op := 0x1A000004#32, csN := false, cap := 26, i := 2, lenByte := 5#8 }
    let t := nextOf (hostWrite 0x14#8 5#32 s)
    statusWord s = 0x00000017#32 ∧ statusWord t = 0x000105EF#32 ∧ t.freq = 0#32 ∧ t.opword = 0x1A000004#32 ∧ t.trace = [.deselect] ∧
    t.resps = [.write true] ∧ statusWord (blockReset t) = 0x00000080#32 := by decide
/-- F4 and F5. -/
theorem test_err_responses :
    hostReadResp 0x28#8 State.reset = .read false 0#32 ∧ hostReadResp 0x02#8 State.reset = .read false 0#32 ∧
    (nextOf (hostWrite 0xA8#8 1#32 State.reset)).resps = [.write false] ∧ (nextOf (hostWrite 0x04#8 0#32 State.reset)).resps = [.write false] ∧
    (nextOf (hostWrite 0x90#8 0#32 State.reset)).resps = [.write false] := by decide
/-- The interface runs the fetched word as the first operation after reset. -/
theorem test_with_fetch_word :
    isNext (step (State.reset.withFetchWord 32 0x00006407)) = true ∧
    (nextOf (step (State.reset.withFetchWord 32 0x00006407))).st = .dly := by decide
/-- R100: LDPIN 01, 02, 03, 04, 05 is the two writes of program P1, and an operation line is a write to OPWORD. -/
theorem test_pseudo_instructions :
    ldPin [1#8, 2#8, 3#8, 4#8, 5#8] = [wr 0x40 0x04030201#32, wr 0x44 0x00000005#32] ∧
    opLine (.xact 0x21#8 5 .notx false 5) = wr 0x00 0x00282158#32 ∧ wakeSettle Params.default = .delay 100 := by decide
/-- R265: steps 1, 3 and 4 of the initialization program are the lines of program P1. -/
theorem test_init_program :
    let c : InitChoice := ⟨0x10#8, [], 0x21#8, 2, [], .notx, 0, 0x40#8, [], .notx, 0⟩
    (initSteps Params.default c).take 4 =
      [[wr 0x00 0x00030005#32, .waitDone], [wr 0x00 0x00041008#32, .waitDone], [wr 0x00 0x00006407#32, .waitDone],
       [wr 0x40 0x04030201#32, wr 0x44 0x00000005#32, wr 0x00 0x00282158#32, .waitDone]] ∧
    stdCommand Params.default 2 = 0x03#8 := by decide
/-- P1's verdict on the echo. -/
theorem test_echo_verdict :
    let s := withMem (cells 0x40 [1#8, 2#8, 3#8, 4#8, 5#8] ++ cells 0x90 [0xFE#8, 0xFD#8, 0xFC#8, 0xFB#8, 0xFA#8])
    echoVerdict s = true ∧ echoVerdict { s with mem := Memory.write s.mem 0x92 0xFD#8 } = false := by decide
/-- R17: the poll bounds and tick counts of the default parameters (95_test_vectors.md section 0). -/
theorem test_poll_bounds :
    pollBound Params.default .notx = 20000 ∧ pollBound Params.default .tx = 150000 ∧ pollBound Params.default .txrx = 600000 ∧
    pollBound Params.default .init = 50000 ∧ delayTicks Params.default 7 = 70 ∧ Params.default.wf = true := by decide

/-! ### Witnesses: the hypotheses of every statement that has some are met -/

theorem witness_DecodeOfEncodeIsTheOperation :
    (Instr.xact 0x21#8 5 .notx false 5).wellFormed = true ∧ (Instr.xact 0xFF#8 15 .init true 31).wellFormed = true := by decide
theorem witness_DecodeFollowsTheOpcodeMap :
    (0x20000001#32).toNat / 2 ^ 29 ≠ 0 ∧ (0x1FFFFFF0#32).toNat % 16 = 0 ∧ (0x1FFFFFFF#32).toNat % 16 = 15 ∧
    (0x1FFFFFFE#32).toNat / 2 ^ 29 = 0 ∧ (0x1FFFFFF1#32).toNat % 16 = 1 ∧
    (0x17000002#32).toNat % 16 = 2 ∧ (0x00000073#32).toNat % 16 = 3 ∧ (0x00000006#32).toNat % 16 = 6 ∧
    (0x00006407#32).toNat % 16 = 7 ∧ (0x00003009#32).toNat % 16 = 9 ∧ (0x0000000B#32).toNat % 16 = 11 ∧
    (0x0000000C#32).toNat % 16 = 12 ∧ (0x0000000D#32).toNat % 16 = 13 ∧ (0x1FFFFFFE#32).toNat % 16 = 14 ∧
    ((fieldOfTc .txrx).toNat = (0x1A020004#32).toNat / 2 ^ 16 % 4 ∧ (0x1A020004#32).toNat % 16 = 4) ∧
    ((fieldOfTc .init).toNat = (0x00030005#32).toNat / 2 ^ 16 % 4 ∧ (0x00030005#32).toNat % 16 = 5) ∧
    ((fieldOfTc .notx).toNat = (0x00282158#32).toNat / 2 ^ 16 % 4 ∧ (0x00282158#32).toNat % 16 = 8) ∧
    ((fieldOfTc .tx).toNat = (0x1A01000A#32).toNat / 2 ^ 16 % 4 ∧ (0x1A01000A#32).toNat % 16 = 10) := by simp [fieldOfTc]
theorem witness_EncodeKeepsEveryReadBit :
    decode 0x1FFFFFF1#32 = .ok (.pack 0xFF#8 15) ∧ decode 0x1FFFFFF8#32 = .ok (.xact 0xFF#8 15 .init true 31) :=
  ⟨by rfl, by rfl⟩
theorem witness_StepRunsTheDecodedOperation :
    (aboutToWrite 0x00002151#32).agenda = .host (.write 0x00#8 0x00002151#32) :: [] ∧ (aboutToWrite 0x00002151#32).fatal = false ∧
    (aboutToWrite 0x00002151#32).busy = false ∧ decode 0x00002151#32 = .ok (.pack 0x21#8 5) :=
  ⟨by rfl, by rfl, by rfl, by rfl⟩
theorem witness_IllegalWordEntersFault :
    (∀ v : Word, (aboutToWrite v).agenda = .host (.write 0x00#8 v) :: [] ∧ (aboutToWrite v).fatal = false ∧ (aboutToWrite v).st = .idle) ∧
    (0x20000001#32).toNat / 2 ^ 29 ≠ 0 ∧ (0x80000006#32).toNat / 2 ^ 29 ≠ 0 ∧ (0x00000000#32).toNat % 16 = 0 ∧
    (0x0000000F#32).toNat % 16 = 15 := ⟨fun _ => ⟨rfl, rfl, rfl⟩, by simp⟩
theorem witness_OnlyAFinishedFaultStops : step faulted = .fault (.stopped .busy) := by rfl
theorem witness_ReadOnlyWritesAnswerErr : (0xA4#8) ∈ [0x04#8, 0x0C#8, 0x10#8, 0x90#8, 0x94#8, 0x98#8, 0x9C#8, 0xA0#8, 0xA4#8] := by decide
theorem witness_UnmappedAccessesAnswerErr :
    (0x02#8).toNat % 4 ≠ 0 ∧ (0x28 ≤ (0x28#8).toNat ∧ (0x28#8).toNat ≤ 0x3F) ∧ (0x28 ≤ (0x3C#8).toNat ∧ (0x3C#8).toNat ≤ 0x3F) ∧
    (0x4C ≤ (0x4C#8).toNat ∧ (0x4C#8).toNat ≤ 0x4F) ∧ (0x6C ≤ (0x6C#8).toNat ∧ (0x6C#8).toNat ≤ 0x6F) ∧
    (0x8C ≤ (0x8C#8).toNat ∧ (0x8C#8).toNat ≤ 0x8F) ∧ 0xA8 ≤ (0xA8#8).toNat ∧ 0xA8 ≤ (0xFC#8).toNat := by decide
theorem witness_WriteWhileBusyIsFatal :
    ∀ st ∈ [FsmState.sWaitIdle, .sWaitDone, .rWaitReady, .rWaitDone, .wWaitHigh, .smp],
      hostReg 0x14#8 = some .freq ∧ HostReg.freq.readOnly = false ∧ ({ State.reset with st := st } : State).fatal = false ∧
      ({ State.reset with st := st } : State).busy = true := by decide
theorem witness_WrittenRegisterReadsBack :
    ∀ p ∈ [(0x08#8, HostReg.config), (0x14#8, .freq), (0x18#8, .fcint), (0x1C#8, .fcfrac), (0x20#8, .dreg0), (0x24#8, .dreg1),
        (0x40#8, .buf .pin 0), (0x48#8, .buf .pin 2), (0x50#8, .buf .txf 0), (0x68#8, .buf .txf 6), (0x70#8, .buf .rxf 0),
        (0x88#8, .buf .rxf 6)],
      hostReg p.1 = some p.2 ∧ p.2.readOnly = false ∧ p.2 ≠ .opword ∧ State.reset.fatal = false ∧ State.reset.busy = false := by decide
theorem witness_ReadsHaveNoSideEffect :
    ({ faulted with agenda := [.host (.read 0x04#8)] } : State).agenda = .host (.read 0x04#8) :: [] ∧ hostReg 0x04#8 = some .status ∧
    hostReg 0xA4#8 = some (.buf .apay 5) := by decide
theorem witness_BufferWordsAreLittleEndian :
    (∀ p ∈ [(Buf.pin, 0), (.pin, 2), (.txf, 0), (.txf, 6), (.rxf, 0), (.rxf, 6)], 4 * p.2 < p.1.size ∧ p.1 ≠ .apay) ∧
    4 * 5 < Buf.apay.size ∧ State.reset.fatal = false ∧ State.reset.busy = false := by decide
theorem witness_FatalEntryRecordsItsCause :
    FsmState.sWaitIdle ∈ [FsmState.sWaitIdle, .sWaitAccept, .sXfer, .sWaitDone, .rWaitReady, .rXferLen, .rXfer, .rWaitDone] ∧
    FsmState.wWaitHigh ∉ [FsmState.sWaitIdle, .sWaitAccept, .sXfer, .sWaitDone, .rWaitReady, .rXferLen, .rXfer, .rWaitDone] := by decide
theorem witness_FaultIsStickyUntilReset :
    faulted.st = .fault ∧ faulted.fatal = true ∧ hostReg 0x00#8 = some .opword ∧ HostReg.opword.readOnly = false ∧ faulted.agenda = [] ∧
    ({ faulted with agenda := [.waitDone] } : State).agenda = .waitDone :: [] ∧ Move.waitDone ≠ .rst ∧
    ({ faulted with agenda := [.rst] } : State).agenda = .rst :: [] := by decide
theorem witness_LaunchChecksFailInOrder :
    (¬ (State.reset.params.cmdFirst.toNat ≤ (0x00#8).toNat ∧ (0x00#8).toNat ≤ State.reset.params.cmdLast.toNat) ∧
      ¬ (State.reset.params.cmdFirst.toNat ≤ (0x80#8).toNat ∧ (0x80#8).toNat ≤ State.reset.params.cmdLast.toNat)) ∧
    (State.reset.params.cmdFirst.toNat ≤ (0x7F#8).toNat ∧ (0x7F#8).toNat ≤ State.reset.params.cmdLast.toNat ∧ 12 < 13 ∧ 12 ≤ 12 ∧ 23 < 24) ∧
    (14 < 15 ∧ 26 < 27 ∧ 2 < 3) ∧ ((774999999#32).toNat < 775000000 ∧ 1100000000 < (1100000001#32).toNat) ∧
    (63 < (64#32).toNat ∧ 2 ^ 19 - 1 < (0x80000#32).toNat ∧ 255 < (256#32).toNat ∧ 2 ^ 24 - 1 < (0x1000000#32).toNat) ∧
    (∀ h : Bool,
      let s : State := { State.reset with config := ⟨.a, .full⟩, params := { Params.default with hasLayoutA := h }, fcint := 64#32 }
      s.config.layout = .a ∧ s.params.hasLayoutA = h ∧ 63 < s.fcint.toNat) ∧
    State.reset.config.layout = .b :=
  ⟨by decide, by decide, by decide, by simp, by simp, fun h => ⟨rfl, rfl, by simp⟩, by decide⟩
theorem witness_ResetInputGivesResetValues : ({ faulted with agenda := [.rst] } : State).agenda = .rst :: [] := by decide
theorem witness_PackPutsTheFrameIntoTxf :
    ∀ c ∈ [0x01#8, 0x7F#8], ∀ n ∈ [0, 12],
      State.reset.params.cmdFirst.toNat ≤ c.toNat ∧ c.toNat ≤ State.reset.params.cmdLast.toNat ∧ n ≤ 12 := by decide
theorem witness_ParseCopiesHeaderAndPayload :
    ∀ p ∈ [(0, 3#8), (5, 8#8), (23, 26#8)],
      p.1 ≤ 23 ∧ 3 ≤ ((withMem (cells 0x70 [p.2])).rxf 0).toNat ∧ ((withMem (cells 0x70 [p.2])).rxf 0).toNat - 3 ≤ p.1 := by decide
theorem witness_ParseRejectsExactlyBadLengths :
    ∀ p ∈ [(0, 2#8), (0, 4#8), (23, 27#8)],
      p.1 ≤ 23 ∧ (((withMem (cells 0x70 [p.2])).rxf 0).toNat < 3 ∨ p.1 < ((withMem (cells 0x70 [p.2])).rxf 0).toNat - 3) := by decide
theorem witness_LaunchOfSendWaitrdyIsrdyDelay :
    (1 ≤ 1 ∧ 14 ≤ 14) ∧ (0 * 1000 + (State.reset.params.pollUs - 1)) / State.reset.params.pollUs = 0 ∧
    (1 * 1000 + (State.reset.params.pollUs - 1)) / State.reset.params.pollUs ≠ 0 := by decide
theorem witness_LaunchOfRecvAndReadackFillsTxf :
    (Instr.recv 1 .notx = .recv 1 .notx ∧ 1 ≤ 1 ∧ 1 ≤ 26) ∧ (Instr.readack 26 .tx = .readack 26 .tx ∧ 3 ≤ 26 ∧ 26 ≤ 26) := by decide
theorem witness_LaunchOfXactAndSendnbPacksTheFrame :
    ∀ p ∈ [(false, 23), (true, 31)],
      State.reset.params.cmdFirst.toNat ≤ (0x21#8).toNat ∧ (0x21#8).toNat ≤ State.reset.params.cmdLast.toNat ∧ 12 ≤ 12 ∧
      (p.1 = false → p.2 ≤ 23) := by decide
theorem witness_WaitrdyTimesOutAfterExactlyN :
    ∀ p ∈ [(0x00000005#32, 2000000, 2), (0x00010005#32, 15000000, 15), (0x00030005#32, 5000000, 5)],
      let s : State := { State.reset with params := coarse, st := .wWaitHigh, op := p.1, busyIn := List.replicate p.2.2 false ++ [true] }
      s.st = .wWaitHigh ∧ s.k = 0 ∧
      (s.op.toNat / 2 ^ 16 % 4, p.2.1) ∈ [(0, s.params.tNotxUs), (1, s.params.tTxUs), (2, s.params.tTxrxUs), (3, s.params.tInitUs)] ∧
      p.2.2 = max 1 ((p.2.1 + (s.params.pollUs - 1)) / s.params.pollUs) ∧ s.busyIn = List.replicate p.2.2 false ++ [true] := by
  simp [coarse, Params.default, State.reset, State.resetWith]
theorem witness_WaitrdySucceedsAtTheFirstHighSample :
    ∀ m ∈ [0, 4],
      let s : State := { State.reset with params := coarse, st := .wWaitHigh, op := 0x00030005#32, busyIn := List.replicate m false ++ [true] }
      s.st = .wWaitHigh ∧ s.k = 0 ∧
      (s.op.toNat / 2 ^ 16 % 4, 5000000) ∈ [(0, s.params.tNotxUs), (1, s.params.tTxUs), (2, s.params.tTxrxUs), (3, s.params.tInitUs)] ∧
      m < max 1 ((5000000 + (s.params.pollUs - 1)) / s.params.pollUs) ∧ s.busyIn = List.replicate m false ++ true :: [] := by
  simp [coarse, Params.default, State.reset, State.resetWith]
theorem witness_EveryPhaseWaitIsBounded :
    ∀ p ∈ [(FsmState.sWaitIdle, 2000000, false, 2), (.sWaitAccept, 2000000, true, 2), (.sWaitDone, 2000000, false, 2),
        (.rWaitReady, 15000000, true, 15), (.rWaitDone, 2000000, false, 2)],
      let s : State := { State.reset with params := coarse, st := p.1, op := 0x1A010004#32, busyIn := List.replicate p.2.2.2 p.2.2.1 }
      ((s.st = .sWaitIdle ∧ p.2.2.1 = false ∧ p.2.1 = s.params.tNotxUs) ∨ (s.st = .sWaitAccept ∧ p.2.2.1 = true ∧ p.2.1 = s.params.tNotxUs) ∨
        (s.st = .sWaitDone ∧ p.2.2.1 = false ∧ p.2.1 = s.params.tNotxUs) ∨
        (s.st = .rWaitReady ∧ p.2.2.1 = true ∧ (s.op.toNat / 2 ^ 16 % 4, p.2.1) ∈
          [(0, s.params.tNotxUs), (1, s.params.tTxUs), (2, s.params.tTxrxUs), (3, s.params.tInitUs)]) ∨
        (s.st = .rWaitDone ∧ p.2.2.1 = false ∧ p.2.1 = s.params.tNotxUs)) ∧
      s.k = 0 ∧ p.2.2.2 = max 1 ((p.2.1 + (s.params.pollUs - 1)) / s.params.pollUs) ∧
      s.busyIn = List.replicate p.2.2.2 p.2.2.1 ++ [] ∧ 1 ≤ s.params.pollUs := by simp [coarse, Params.default, State.reset, State.resetWith]
theorem witness_SendPhaseShiftsTheFrame :
    ∀ p ∈ [(0x00000023#32, 2), (0x00003009#32, 2), (0x00043008#32, 2)],
      let xs : List (Byte × Bool) := [(0x55#8, false), (0x56#8, false)]
      let s : State := { withMem (cells 0x50 [2#8, 0x30#8]) with
        st := .sWaitIdle, op := p.1, len := p.2, busyIn := [true, false, true], xchgIn := xs }
      s.st = .sWaitIdle ∧ s.k = 0 ∧ (s.opCode = 0x3#4 ∨ s.opCode = 0x9#4 ∨ (s.opCode = 0x8#4 ∧ s.opNa = true)) ∧ 1 ≤ s.len ∧ xs.length = s.len ∧ (∀ x ∈ xs, x.2 = false) ∧
      s.busyIn = true :: false :: true :: [] ∧ s.xchgIn = xs ++ [] := by decide +kernel
theorem witness_ReceivePhaseStoresTheReply :
    ∀ xs ∈ [[(1#8, false)], [(5#8, false), (0#8, false), (1#8, false), (0x10#8, false), (0x20#8, false)]],
      let s : State := { State.reset with st := .rWaitReady, op := 0x05000004#32, cap := 5, busyIn := [false, true], xchgIn := xs }
      s.st = .rWaitReady ∧ s.k = 0 ∧ s.opCode = 0x4#4 ∧ s.cap ≤ 26 ∧ 1 ≤ xs.length ∧ xs.length ≤ s.cap ∧
      (xs.getD 0 (0#8, false)).1.toNat = xs.length ∧ (∀ x ∈ xs, x.2 = false) ∧ s.busyIn = false :: true :: [] ∧ s.xchgIn = xs ++ [] := by decide +kernel
theorem witness_TransferErrorEndsThePhase :
    ∀ p ∈ [(FsmState.sXfer, 0x30#8), (.rXferLen, 0xFF#8), (.rXfer, 0xFF#8)],
      let s : State := { withMem (cells 0x50 [2#8, 0x30#8]) with st := p.1, i := 1, len := 2, xchgIn := [(9#8, true)] }
      ((s.st = .sXfer ∧ p.2 = s.txf s.i) ∨ (s.st = .rXferLen ∧ p.2 = 0xFF#8) ∨ (s.st = .rXfer ∧ p.2 = 0xFF#8)) ∧ s.errNext = true := by
  decide
theorem witness_LengthByteIsChecked :
    ∀ b ∈ [0#8, 1#8, 2#8, 5#8, 6#8],
      let s : State := { State.reset with st := .rXferLen, cap := 5, xchgIn := [(b, false)] }
      s.st = .rXferLen ∧ s.errNext = false ∧
      ((s.rxNext.toNat = 0 ∨ s.cap < s.rxNext.toNat) ∨ (s.rxNext.toNat = 1 ∧ 1 ≤ s.cap) ∨ (2 ≤ s.rxNext.toNat ∧ s.rxNext.toNat ≤ s.cap)) := by
  decide
theorem witness_DelayTakesExactlyItsTicks : 10 = delayTicks State.reset.params 1 ∧ 1 ≤ 10 := by decide
theorem witness_ParseStepUpdatesDriverState :
    (∀ p ∈ [(3, 2#8), (3, 4#8), (26, 27#8)],
      let s : State := { withMem (cells 0x70 [p.2]) with cap := p.1 }
      3 ≤ s.cap ∧ s.cap ≤ 26 ∧ ((s.rxf 0).toNat < 3 ∨ s.cap < (s.rxf 0).toNat)) ∧
    ∀ p ∈ [(3, 3#8), (26, 26#8)],
      let s : State := { withMem (cells 0x70 [p.2]) with cap := p.1 }
      3 ≤ s.cap ∧ s.cap ≤ 26 ∧ 3 ≤ (s.rxf 0).toNat ∧ (s.rxf 0).toNat ≤ s.cap := by decide
/-- A state whose RXF holds only a length byte, with capacity 26, under an operation word. -/
def beforeCheck (w : Word) (l : Byte) : State := { withMem (cells 0x70 [l]) with cap := 26, op := w }

/-- XACT 0x22, 1, NOTX, 2 one step before its parse, with a reply of four bytes (vector E3). -/
def beforeAnomaly : State :=
  { withMem [(0x70, 4#8), (0x72, 2#8), (0x73, 0x99#8)] with
    st := .rWaitDone, opword := 0x00102218#32, op := 0x00102218#32, cap := 26, lenByte := 4#8, csN := false, busyIn := [true] }

theorem witness_AnomalyIsXactsLengthMismatch :
    (3 ≤ (beforeCheck 0x00102218#32 4#8).cap ∧ ((beforeCheck 0x00102218#32 4#8).rxf 0).toNat = 4 ∧
      (beforeCheck 0x00102218#32 4#8).opCode = 0x8#4 ∧ (beforeCheck 0x00102218#32 4#8).opApl = 2) ∧
    (((beforeCheck 0x00102218#32 5#8).rxf 0).toNat = 5 ∧ (beforeCheck 0x00102218#32 5#8).opCode = 0x8#4) ∧
    (beforeCheck 0x1A01000A#32 26#8).opCode = 0xA#4 ∧ ((beforeCheck 0x1A01000A#32 26#8).rxf 0).toNat = 26 ∧
    ((beforeCheck 0x1A01000A#32 2#8).rxf 0).toNat = 2 ∧ ((beforeCheck 0x1A01000A#32 27#8).rxf 0).toNat = 27 ∧
    exec (.parse 23) State.reset = .next (nextOf (exec (.parse 23) State.reset)) ∧
    (step beforeAnomaly = .next (nextOf (step beforeAnomaly)) ∧ beforeAnomaly.anomaly = false ∧
      (nextOf (step beforeAnomaly)).anomaly = true) :=
  ⟨by decide, by decide, by decide, by decide, by decide, by decide, by rfl, by rfl, by decide, by decide⟩

/-- The reply of vector E1, with the chip's answers to the seven bytes of the frame. -/
def echoFrame : List (Byte × Bool) := List.replicate 7 (0#8, false)
def echoReply : List (Byte × Bool) :=
  [(8#8, false), (0#8, false), (2#8, false), (0xFE#8, false), (0xFD#8, false), (0xFC#8, false), (0xFB#8, false), (0xFA#8, false)]
/-- The block of vector E1 before the launch. -/
def echoState : State :=
  { withMem (cells 0x40 [1#8, 2#8, 3#8, 4#8, 5#8]) with busyIn := [true, false, true, false, true], xchgIn := echoFrame ++ echoReply }

theorem witness_XactRunsSendReceiveParse :
    decode 0x00282158#32 = .ok (.xact 0x21#8 5 .notx false 5) ∧
    exec (.xact 0x21#8 5 .notx false 5) (latchWord 0x00282158#32 echoState)
      = .next (nextOf (exec (.xact 0x21#8 5 .notx false 5) (latchWord 0x00282158#32 echoState))) ∧
    (echoState.params.cmdFirst.toNat ≤ (0x21#8).toNat ∧ (0x21#8).toNat ≤ echoState.params.cmdLast.toNat ∧ 5 ≤ 12 ∧ 5 ≤ 23) ∧
    (echoFrame.length = 5 + 2 ∧ 3 ≤ echoReply.length ∧
      echoReply.length ≤ (nextOf (exec (.xact 0x21#8 5 .notx false 5) (latchWord 0x00282158#32 echoState))).cap ∧
      (echoReply.getD 0 (0#8, false)).1.toNat = echoReply.length ∧ (∀ x ∈ echoFrame ++ echoReply, x.2 = false)) ∧
    echoState.busyIn = true :: false :: true :: false :: true :: [] ∧ echoState.xchgIn = echoFrame ++ echoReply ++ [] :=
  ⟨by rfl, by rfl, by decide +kernel, by decide +kernel, by decide +kernel, by decide +kernel⟩

/-- A state one step before a parse that changes DRVSTATE. -/
def beforeParse : State :=
  { withMem [(0x70, 3#8), (0x71, 0x2A#8), (0x72, 1#8)] with
    st := .rWaitDone, opword := 0x1A01000A#32, op := 0x1A01000A#32, cap := 26, lenByte := 3#8, csN := false, busyIn := [true] }

theorem witness_DrvstateChangesOnlyByAParse :
    step beforeParse = .next (nextOf (step beforeParse)) ∧ (nextOf (step beforeParse)).drvstate ≠ beforeParse.drvstate :=
  ⟨by rfl, by decide⟩

/-- A block on which XACT 0x30, 0 and SENDNB 0x30, 0 can be launched, with chip inputs for the split law. -/
def splitState : State :=
  { State.reset with
    params := oneSample, busyIn := [true, false, true, false, true],
    xchgIn := [(0#8, false), (0#8, false), (3#8, false), (0x2A#8, false), (1#8, false)] ++ List.replicate 23 (0#8, false) }
/-- XACT 0x30, 0, TX, 0 launched there. -/
def splitXact : State := nextOf (exec (.xact 0x30#8 0 .tx false 0) (latchWord 0x00013008#32 splitState))
/-- The same block with the levels of two ISRDY polls put in, and SENDNB 0x30, 0 launched there. -/
def pollState : State := { splitState with busyIn := [true, false, true] ++ [true, false] ++ [false, true] }
def splitSendnb : State := nextOf (exec (.sendnb 0x30#8 0) (latchWord 0x00003009#32 pollState))
/-- The end of SENDNB and two ISRDY polls, and READACK 26, TX launched there. -/
def polled : State := afterLaunch 0x00000006#32 1 (afterLaunch 0x00000006#32 1 (fsmRun 5 splitSendnb))
def splitReadack : State := nextOf (exec (.readack 26 .tx) (latchWord 0x1A01000A#32 polled))

theorem witness_SplitTransactionAgreesWithXact :
    (splitState.config.capMode = .full ∧ decode 0x00013008#32 = .ok (.xact 0x30#8 0 .tx false 0) ∧
      decode 0x00003009#32 = .ok (.sendnb 0x30#8 0) ∧ decode 0x00000006#32 = .ok .isrdy ∧ decode 0x1A01000A#32 = .ok (.readack 26 .tx)) ∧
    (exec (.xact 0x30#8 0 .tx false 0) (latchWord 0x00013008#32 splitState) = .next splitXact ∧ splitXact.busy = true ∧
      exec (.sendnb 0x30#8 0) (latchWord 0x00003009#32
        { splitState with busyIn := [true, false, true] ++ [true, false] ++ [false, true] }) = .next splitSendnb) ∧
    ((∀ j, j < 5 → (fsmRun j splitXact).st.sending = true) ∧ (fsmRun 5 splitXact).st = .rWaitReady ∧
      splitState.busyIn = [true, false, true] ++ [false, true] ∧ (fsmRun 5 splitXact).busyIn = [false, true] ∧
      [false, true] ≠ [] ∧ [true, false] = List.replicate 1 true ++ [false]) ∧
    (polled.params = splitState.params ∧ polled.mem = (fsmRun 5 splitSendnb).mem ∧ polled.drvstate = (fsmRun 5 splitSendnb).drvstate ∧
      polled.ackinfo = (fsmRun 5 splitSendnb).ackinfo ∧ polled.busyIn = [false, true] ∧ polled.xchgIn = (fsmRun 5 splitXact).xchgIn) ∧
    (pollBound splitState.params .tx + pollBound splitState.params .notx ≤ [false, true].length ∧ 26 ≤ (fsmRun 5 splitXact).xchgIn.length) ∧
    exec (.readack 26 .tx) (latchWord 0x1A01000A#32 polled) = .next splitReadack :=
  ⟨⟨by rfl, by rfl, by rfl, by rfl, by rfl⟩, ⟨by rfl, by rfl, by rfl⟩,
    ⟨by decide, by decide, by decide, by decide, by decide, by decide⟩,
    ⟨by rfl, by rfl, by rfl, by rfl, by decide, by decide⟩, ⟨by decide, by decide⟩, by rfl⟩

theorem witness_ChipSelectIsReleasedExactlyOnce :
    (decode 0x00000073#32 = .ok (.send 7) ∧
      exec (.send 7) (latchWord 0x00000073#32 State.reset) = .next (launched 0x00000073#32 State.reset) ∧
      (launched 0x00000073#32 State.reset).busy = true) ∧
    (decode 0x1A020004#32 = .ok (.recv 26 .txrx) ∧
      exec (.recv 26 .txrx) (latchWord 0x1A020004#32 State.reset) = .next (launched 0x1A020004#32 State.reset) ∧
      (launched 0x1A020004#32 State.reset).busy = true) ∧
    (decode 0x00003009#32 = .ok (.sendnb 0x30#8 0) ∧
      exec (.sendnb 0x30#8 0) (latchWord 0x00003009#32 pollState) = .next splitSendnb ∧ splitSendnb.busy = true ∧
      (fsmRun 4 splitSendnb).busy = true ∧ (fsmRun 5 splitSendnb).busy = false) ∧
    (decode 0x1A01000A#32 = .ok (.readack 26 .tx) ∧
      exec (.readack 26 .tx) (latchWord 0x1A01000A#32 polled) = .next splitReadack ∧ splitReadack.busy = true) :=
  ⟨⟨by rfl, by rfl, by rfl⟩, ⟨by rfl, by rfl, by rfl⟩, ⟨by rfl, by rfl, by rfl, by decide, by decide⟩, ⟨by rfl, by rfl, by rfl⟩⟩

/-- XACT 0x30, 0 on a block whose chip never shows its acknowledgement ready. -/
def noReply : State := nextOf (exec (.xact 0x30#8 0 .tx false 0)
  (latchWord 0x00013008#32 { splitState with busyIn := [true, false, true, true] }))
/-- XACT 0x30, 0 on a block whose chip is never idle. -/
def neverIdle : State := nextOf (exec (.xact 0x30#8 0 .tx false 0) (latchWord 0x00013008#32 { splitState with busyIn := [false] }))

theorem witness_XactReleasesOncePerPhase :
    decode 0x00013008#32 = .ok (.xact 0x30#8 0 .tx false 0) ∧
    (exec (.xact 0x30#8 0 .tx false 0) (latchWord 0x00013008#32 { splitState with busyIn := [true, false, true, true] }) = .next noReply ∧
      noReply.busy = true ∧ (fsmRun 6 noReply).busy = false ∧ (5 < 6 ∧ (fsmRun 5 noReply).st = .rWaitReady)) ∧
    (exec (.xact 0x30#8 0 .tx false 0) (latchWord 0x00013008#32 { splitState with busyIn := [false] }) = .next neverIdle ∧
      neverIdle.busy = true ∧ (fsmRun 1 neverIdle).busy = false ∧ ∀ j, j < 1 → (fsmRun j neverIdle).st ≠ .rWaitReady) :=
  ⟨by rfl, ⟨by rfl, by rfl, by decide, by decide⟩, ⟨by rfl, by rfl, by decide, by decide⟩⟩

theorem witness_EveryOperationEndsWithinItsBound :
    decode 0x00013008#32 = .ok (.xact 0x30#8 0 .tx false 0) ∧
    exec (.xact 0x30#8 0 .tx false 0) (latchWord 0x00013008#32 splitState) = .next splitXact := ⟨by rfl, by rfl⟩
theorem witness_ReadsNeverDisturbTheFsm :
    (∀ m ∈ [Move.host (.read 0x04#8), .fsm, .host (.read 0x28#8), .fsm], m = .fsm ∨ ∃ addr, m = .host (.read addr)) ∧
    ({ splitXact with agenda := [Move.host (.read 0x04#8), .fsm, .host (.read 0x28#8), .fsm] } : State).agenda
      = [Move.host (.read 0x04#8), .fsm, .host (.read 0x28#8), .fsm] ++ [] := by
  refine ⟨?_, by rfl⟩
  intro m hm
  simp only [List.mem_cons, List.not_mem_nil, or_false] at hm
  rcases hm with rfl | rfl | rfl | rfl
  · exact .inr ⟨_, rfl⟩
  · exact .inl rfl
  · exact .inr ⟨_, rfl⟩
  · exact .inl rfl
theorem witness_EveryStepKeepsTheInvariant :
    (splitXact.Inv = true ∧ step splitXact = .next (nextOf (step splitXact))) ∧
    (beforeParse.Inv = true ∧ step beforeParse = .next (nextOf (step beforeParse))) ∧
    ({ faulted with agenda := [.rst] } : State).Inv = true := ⟨⟨by decide, by rfl⟩, ⟨by decide, by rfl⟩, by decide⟩
theorem witness_EveryStepKeepsTheBuffersCanonical :
    beforeParse.memOk = true ∧ step beforeParse = .next (nextOf (step beforeParse)) := ⟨by decide, by rfl⟩
theorem witness_NoStepChangesTheParameters : step splitXact = .next (nextOf (step splitXact)) := by rfl
theorem witness_TheTraceOnlyGrowsUntilReset :
    step splitXact = .next (nextOf (step splitXact)) ∧
    step { faulted with agenda := [.rst] } = .next (nextOf (step { faulted with agenda := [.rst] })) := ⟨by rfl, by rfl⟩
theorem witness_NoBusErrorWhenSpiCannotFail :
    let s : State := { launched 0x00000073#32 State.reset with params := { Params.default with spiCanFail := false } }
    s.params.spiCanFail = false ∧ s.result ≠ .buserr := by decide
theorem witness_RdyChangesOnlyByIsrdy :
    let s : State := { launched 0x00000006#32 State.reset with busyIn := [false] }
    let u : State := { aboutToWrite 0x00000006#32 with rdy := true }
    (step s = .next (nextOf (step s)) ∧ (nextOf (step s)).rdy ≠ s.rdy) ∧ step u = .next (nextOf (step u)) ∧ (nextOf (step u)).rdy ≠ u.rdy :=
  ⟨⟨by rfl, by decide⟩, by rfl, by decide⟩
theorem witness_HzToRegistersIsTheForwardFormula :
    (∀ f ∈ [775000000#32, 902200000#32, 1100000000#32], 775000000 ≤ f.toNat ∧ f.toNat ≤ 1100000000) ∧
    State.reset.params.factor * (902200000#32).toNat / 27600000 < 2 ^ 32 ∧ State.reset.params.factor = 1 :=
  ⟨by simp, by decide, by decide⟩
theorem witness_RegistersToHzIsTheInverseFormula :
    (0 ≤ 63 ∧ 0 ≤ 2 ^ 19 - 1) ∧ (63#32).toNat ≤ 63 ∧ (0x7FFFF#32).toNat ≤ 2 ^ 19 - 1 := by decide
theorem witness_RegistersToHzHasItsClosedForm :
    State.reset.fcint.toNat ≤ 63 ∧ State.reset.fcfrac.toNat ≤ 2 ^ 19 - 1 ∧ isNext (exec .reg2hz State.reset) = true := by decide
theorem witness_FrequencyRoundTripLosesAtMost53Hz :
    State.reset.params.factor = 1 ∧ 775000000 ≤ (775000154#32).toNat ∧ (775000154#32).toNat ≤ 1100000000 := by decide
/-- 95_test_vectors.md section 2.4: the bound of 53 Hz is reached. -/
theorem test_round_trip_corner :
    (launched 0x0000000C#32 (launched 0x0000000B#32 { State.reset with freq := 775000154#32 })).freq = 775000101#32 := by decide
theorem witness_LayoutBPlacesTheFields :
    State.reset.config.layout = .b ∧ (255#32).toNat ≤ 255 ∧ (0xFFFFFF#32).toNat ≤ 2 ^ 24 - 1 := by decide
theorem witness_LayoutAPlacesTheFields :
    let s : State := { State.reset with
      params := { Params.default with hasLayoutA := true }, config := ⟨.a, .full⟩, fcint := 63#32, fcfrac := 0x7FFFF#32 }
    s.config.layout = .a ∧ s.params.hasLayoutA = true ∧ s.fcint.toNat ≤ 63 ∧ s.fcfrac.toNat ≤ 2 ^ 19 - 1 := by decide
theorem witness_LayoutsRoundTrip :
    let b : State := { State.reset with fcint := 255#32, fcfrac := 0xFFFFFF#32 }
    let a : State := { State.reset with
      params := { Params.default with hasLayoutA := true }, config := ⟨.a, .full⟩, fcint := 63#32, fcfrac := 0x7FFFF#32, dreg0 := 0xFDDA#16 }
    (b.config.layout = .b ∧ b.fcint.toNat ≤ 255 ∧ b.fcfrac.toNat < 2 ^ 24) ∧
    (a.config.layout = .a ∧ a.params.hasLayoutA = true ∧ a.fcint.toNat ≤ 63 ∧ a.fcfrac.toNat < 2 ^ 19) ∧ a.dreg0.toNat / 2 ^ 9 ≠ 1 ∧
    (0x03DA#16).toNat / 2 ^ 9 = 1 := by decide

theorem witness_PollCountsAreTheCeilings :
    1 ≤ Params.default.pollUs ∧ (TimeoutClass.txrx, 60000000) ∈ [(TimeoutClass.notx, Params.default.tNotxUs), (.tx, Params.default.tTxUs),
      (.txrx, Params.default.tTxrxUs), (.init, Params.default.tInitUs)] := by simp [Params.default]
theorem witness_ReadackReceivesAndParses :
    ∀ xs ∈ [[(1#8, false)], [(2#8, false), (0#8, false)], [(3#8, false), (0x2A#8, false), (1#8, false)]],
      let s : State := { State.reset with st := .rWaitReady, op := 0x0300000A#32, cap := 3, busyIn := [false, true], xchgIn := xs }
      s.st = .rWaitReady ∧ s.k = 0 ∧ s.opCode = 0xA#4 ∧ 3 ≤ s.cap ∧ s.cap ≤ 26 ∧ 1 ≤ xs.length ∧ xs.length ≤ s.cap ∧
      (xs.getD 0 (0#8, false)).1.toNat = xs.length ∧ (∀ x ∈ xs, x.2 = false) ∧ s.busyIn = false :: true :: [] ∧ s.xchgIn = xs ++ [] := by
  decide +kernel

end Sys2Proof.Tests
end

/-! # 10_state.md: what reset leaves

The values hold for a block built with any parameters; O20 is the case of the default ones. -/
namespace Sys2Proof.Machine

/-- R40, R50: reset lists no byte in the storage, so each of them reads as a blank one. -/
@[simp] theorem read_resetWith_mem (p : Params) (x : Nat) : Memory.read (State.resetWith p).mem x = 0#8 :=
  Memory.read_nil x

/-- R32, R50: of the flags and codes that STATUS packs, only CS_N (bit 7) is not 0 after reset. -/
@[simp] theorem statusWord_resetWith (p : Params) : statusWord (State.resetWith p) = 0x00000080#32 := by
  calc statusWord (State.resetWith p)
    _ = 0#12 ++ 0#4 ++ 0#3 ++ 0#1 ++ 0#1 ++ 0#3 ++ 1#1 ++ 0#1 ++ 0#1 ++ 0#1 ++ 0#4 := rfl
    _ = 0x00000080#32 := by decide

/-- Settles O20: every register, flag and internal field is one of the fields that `State.resetWith` writes out; the buffer bytes are
read through the storage, and STATUS is assembled from the fields. -/
theorem resetStateHasTheSpecsValues : Obligations.ResetStateHasTheSpecsValues := by
  unfold Obligations.ResetStateHasTheSpecsValues
  have bufferBytes : ∀ x, Memory.read State.reset.mem x = 0#8 := read_resetWith_mem Params.default
  have statusReg : statusWord State.reset = 0x00000080#32 := statusWord_resetWith Params.default
  exact ⟨rfl, rfl, rfl, rfl, rfl, rfl, rfl, rfl, rfl, rfl, rfl, rfl, rfl, rfl, rfl, rfl, rfl, rfl, bufferBytes,
    rfl, rfl, rfl, rfl, rfl, rfl, rfl, rfl, statusReg⟩

end Sys2Proof.Machine

/-! # 20_memory.md: the host port

What an access does follows from what its offset falls on: the map's offsets come first, then the ends of an access, then the
bytes of a buffer word. -/
namespace Sys2Proof.Machine

/-! ### The register map -/

/-- R73: misaligned offsets and those between the registers fall on no register. -/
theorem hostReg_eq_none {addr : BitVec 8}
    (h : addr.toNat % 4 ≠ 0 ∨ (0x28 ≤ addr.toNat ∧ addr.toNat ≤ 0x3F) ∨ (0x4C ≤ addr.toNat ∧ addr.toNat ≤ 0x4F) ∨
      (0x6C ≤ addr.toNat ∧ addr.toNat ≤ 0x6F) ∨ (0x8C ≤ addr.toNat ∧ addr.toNat ≤ 0x8F) ∨ 0xA8 ≤ addr.toNat) :
    hostReg addr = none := by
  unfold hostReg
  generalize addr.toNat = a at h ⊢
  dsimp only
  by_cases misaligned : a % 4 ≠ 0
  · rw [if_pos misaligned]
  · repeat rw [if_neg (by omega)]

/-- R72: base + 4w falls on word w of the buffer. -/
theorem hostReg_bufOffset (b : Buf) {w : Nat} (hw : 4 * w < b.size) :
    hostReg (BitVec.ofNat 8 (b.base + 4 * w)) = some (.buf b w) := by
  have fits : b.base + 4 * w < 2 ^ 8 := by cases b <;> simp only [Buf.base, Buf.size] at hw ⊢ <;> omega
  unfold hostReg
  rw [BitVec.toNat_ofNat, Nat.mod_eq_of_lt fits]
  generalize ha : b.base + 4 * w = a
  dsimp only
  cases b with
  | pin | txf | rxf | apay =>
    simp only [Buf.base, Buf.size] at hw ha
    repeat rw [if_neg (by omega)]
    rw [if_pos (by omega), show (a - _) / 4 = w by omega]

/-- R74: the offsets of STATUS, DRVSTATE, ACKINFO and the six words of APAY fall on a read-only register. -/
theorem hostReg_readOnly {addr : BitVec 8}
    (h : addr ∈ [0x04#8, 0x0C#8, 0x10#8, 0x90#8, 0x94#8, 0x98#8, 0x9C#8, 0xA0#8, 0xA4#8]) :
    ∃ r, hostReg addr = some r ∧ r.readOnly = true := by
  have apay {w : Nat} (hw : 4 * w < 23) :
      ∃ r, hostReg (BitVec.ofNat 8 (0x90 + 4 * w)) = some r ∧ r.readOnly = true :=
    ⟨.buf .apay w, hostReg_bufOffset .apay hw, rfl⟩
  simp only [List.mem_cons, List.not_mem_nil, or_false] at h
  rcases h with rfl | rfl | rfl | rfl | rfl | rfl | rfl | rfl | rfl
  · exact ⟨.status, rfl, rfl⟩
  · exact ⟨.drvstate, rfl, rfl⟩
  · exact ⟨.ackinfo, rfl, rfl⟩
  · exact apay (w := 0) (by decide)
  · exact apay (w := 1) (by decide)
  · exact apay (w := 2) (by decide)
  · exact apay (w := 3) (by decide)
  · exact apay (w := 4) (by decide)
  · exact apay (w := 5) (by decide)

/-- R74: of the buffers, APAY alone is read-only. -/
theorem readOnly_buf_eq_false {b : Buf} (hb : b ≠ .apay) (w : Nat) : (HostReg.buf b w).readOnly = false := by
  cases b with
  | apay => exact absurd rfl hb
  | pin | txf | rxf => rfl

/-! ### The ends of an access -/

/-- R73: a read that falls on no register. -/
theorem hostRead_unmapped {addr : BitVec 8} (s : State) (h : hostReg addr = none) :
    hostRead addr s = respond (.read false 0#32) s := by
  simp [hostRead, hostReadResp, h]

/-- R73: a write that falls on no register. -/
theorem hostWrite_unmapped {addr : BitVec 8} (v : Word) (s : State) (h : hostReg addr = none) :
    hostWrite addr v s = .next (respond (.write false) s) := by
  simp [hostWrite, h]

/-- R74: a write to a read-only register, before any look at FATAL or BUSY. -/
theorem hostWrite_readOnly {addr : BitVec 8} {r : HostReg} (v : Word) (s : State) (h : hostReg addr = some r)
    (hr : r.readOnly = true) : hostWrite addr v s = .next (respond (.write false) s) := by
  simp [hostWrite, h, hr]

/-- R75 step 3: a write to a writable register other than OPWORD of a block that is neither BUSY nor FATAL. -/
theorem hostWrite_writable {addr : BitVec 8} {r : HostReg} (v : Word) (s : State) (h : hostReg addr = some r)
    (hr : r.readOnly = false) (hop : r ≠ .opword) (hf : s.fatal = false) (hb : s.busy = false) :
    hostWrite addr v s = .next (writeReg r v (respond (.write true) s)) := by
  simp [hostWrite, h, hr, hop, hf, hb]

/-- R76: a read of a mapped register. -/
theorem hostReadResp_mapped {addr : BitVec 8} {r : HostReg} (s : State) (h : hostReg addr = some r) :
    hostReadResp addr s = .read true (readReg r s) := by
  simp [hostReadResp, h]

/-! ### Buffer words -/

/-- R72: a writable buffer takes the word in its storage and nothing else changes. -/
theorem writeReg_buf {b : Buf} (hb : b ≠ .apay) (w : Nat) (v : Word) (s : State) :
    writeReg (.buf b w) v s = { s with mem := writeBufWord s.mem b w v } := by
  cases b with
  | apay => exact absurd rfl hb
  | pin | txf | rxf => rfl

/-- R72: byte j of a word read is byte 4w + j of the buffer. -/
theorem wordByte_bufWord (m : Memory) (b : Buf) (w : Nat) {j : Nat} (hj : j < 4) :
    wordByte (bufWord m b w) j = Memory.readBuf m b (4 * w + j) := by
  ext i hi
  simp only [wordByte, bufWord, BitVec.getElem_extractLsb', BitVec.getLsbD_append]
  rw [← BitVec.getLsbD_eq_getElem]
  match j, hj with
  | 0, _ => rw [if_pos (by omega)]; congr 1; omega
  | 1, _ => rw [if_neg (by omega), if_pos (by omega)]; congr 1; omega
  | 2, _ => rw [if_neg (by omega), if_neg (by omega), if_pos (by omega)]; congr 1; omega
  | 3, _ => rw [if_neg (by omega), if_neg (by omega), if_neg (by omega)]; congr 1; omega

/-- R72: what any offset reads after a word is written to a buffer. -/
theorem Memory.read_writeBufWord (m : Memory) (b : Buf) (w : Nat) (v : Word) (x : Nat) :
    Memory.read (writeBufWord m b w v) x =
      if b.base + 4 * w ≤ x ∧ x < b.base + 4 * w + 4 ∧ x < b.base + b.size then wordByte v (x - (b.base + 4 * w))
      else Memory.read m x :=
  Memory.read_storeBytes m b (4 * w) (wordByte v) 4 x

/-- R72: the bytes that a written word sets, all but the pads. -/
theorem Memory.read_writeBufWord_byte (m : Memory) (b : Buf) (w : Nat) (v : Word) {j : Nat} (hj : j < 4)
    (hs : 4 * w + j < b.size) : Memory.read (writeBufWord m b w v) (b.base + (4 * w + j)) = wordByte v j := by
  have index : b.base + (4 * w + j) - (b.base + 4 * w) = j := by omega
  rw [Memory.read_writeBufWord, if_pos (by omega), index]

/-! ### The statements -/

/-- Settles O9: each of the nine offsets falls on a read-only register. -/
theorem readOnlyWritesAnswerErr : Obligations.ReadOnlyWritesAnswerErr := by
  unfold Obligations.ReadOnlyWritesAnswerErr
  intro s addr v h
  obtain ⟨r, hr, readOnly⟩ := hostReg_readOnly h
  exact hostWrite_readOnly v s hr readOnly

/-- Settles O10: the offsets are those that the map sends nowhere. -/
theorem unmappedAccessesAnswerErr : Obligations.UnmappedAccessesAnswerErr := by
  unfold Obligations.UnmappedAccessesAnswerErr
  intro s addr h
  have unmapped : hostReg addr = none := hostReg_eq_none h
  exact ⟨hostRead_unmapped s unmapped, fun v => hostWrite_unmapped v s unmapped⟩

/-- Settles O15: the offset falls on word w of the buffer, so a read assembles its four bytes and a write stores them one by one. -/
theorem bufferWordsAreLittleEndian : Obligations.BufferWordsAreLittleEndian := by
  unfold Obligations.BufferWordsAreLittleEndian
  intro s b w hw
  have mapped := hostReg_bufOffset b hw
  constructor
  · exact ⟨bufWord s.mem b w, hostReadResp_mapped s mapped, fun j hj => wordByte_bufWord s.mem b w hj⟩
  · intro hb hf hbusy v
    have written := hostWrite_writable v s mapped (readOnly_buf_eq_false hb w) (by simp) hf hbusy
    rw [writeReg_buf hb] at written
    refine ⟨_, written, fun j hj hs => ?_, fun x hx => ?_⟩
    · exact Memory.read_writeBufWord_byte s.mem b w v hj hs
    · exact (Memory.read_writeBufWord s.mem b w v x).trans (if_neg hx)

end Sys2Proof.Machine

/-! # 30_encoding.md: the operation word

A field is a run of bits, so its number is the word's number divided by the weight of the field's lowest bit, modulo the field's size.
The decoder's answer is said per opcode over the fields first; the places of the fields come in at the end. -/
namespace Sys2Proof

/-! ### The fields as arithmetic -/

section
variable (w : Word)

/-- R90. -/
@[simp] theorem toNat_fieldOp : (fieldOp w).toNat = w.toNat % 16 := by
  simp [fieldOp]

/-- R90. -/
theorem toNat_fieldN : (fieldN w).toNat = w.toNat / 2 ^ 4 % 16 := by
  simp [fieldN, Nat.shiftRight_eq_div_pow]

/-- R90: an 8-bit value drops the bits above CMD by itself. -/
theorem fieldCmd_eq_ofNat : fieldCmd w = BitVec.ofNat 8 (w.toNat / 2 ^ 8) := by
  apply BitVec.eq_of_toNat_eq
  simp [fieldCmd, Nat.shiftRight_eq_div_pow]

/-- R90. -/
theorem toNat_fieldTc : (fieldTc w).toNat = w.toNat / 2 ^ 16 % 4 := by
  simp [fieldTc, Nat.shiftRight_eq_div_pow]

/-- R90. -/
theorem fieldNa_eq_decide : fieldNa w = decide (w.toNat / 2 ^ 18 % 2 = 1) := by
  rw [fieldNa, BitVec.getLsbD, Nat.testBit_eq_decide_div_mod_eq]

/-- R90. -/
theorem toNat_fieldApl : (fieldApl w).toNat = w.toNat / 2 ^ 19 % 32 := by
  simp [fieldApl, Nat.shiftRight_eq_div_pow]

/-- R90. -/
theorem toNat_fieldCap : (fieldCap w).toNat = w.toNat / 2 ^ 24 % 32 := by
  simp [fieldCap, Nat.shiftRight_eq_div_pow]

/-- R91. -/
theorem toNat_fieldMs : (fieldMs w).toNat = w.toNat / 2 ^ 8 % 2 ^ 16 := by
  simp [fieldMs, Nat.shiftRight_eq_div_pow]

/-- R90: RSV is the top of the word, so nothing above it is cut off. -/
theorem toNat_fieldRsv : (fieldRsv w).toNat = w.toNat / 2 ^ 29 := by
  have inRange : w.toNat / 2 ^ 29 < 2 ^ 3 := by omega
  rw [fieldRsv, BitVec.extractLsb'_toNat, Nat.shiftRight_eq_div_pow, Nat.mod_eq_of_lt inRange]

/-- R96: the reserved bits are clear exactly when the word is below 2^29. -/
theorem fieldRsv_eq_zero_iff : fieldRsv w = 0#3 ↔ w.toNat / 2 ^ 29 = 0 := by
  rw [← BitVec.toNat_inj, toNat_fieldRsv]
  rfl

end

/-- R95: the class whose code stands at the place of TC is the one that the decoder reads. -/
theorem tcOfField_fieldTc {w : Word} {tc : TimeoutClass} (h : (fieldOfTc tc).toNat = w.toNat / 2 ^ 16 % 4) :
    tcOfField (fieldTc w) = tc := by
  have code : fieldTc w = fieldOfTc tc := BitVec.eq_of_toNat_eq ((toNat_fieldTc w).trans h.symm)
  rw [code, tcOfField_fieldOfTc]

/-! ### What the decoder answers

One equation per opcode of R93, over the fields that R94 says its operation reads. -/

/-- R98: a word with a reserved bit set. -/
theorem decode_reserved {w : Word} (h : w.toNat / 2 ^ 29 ≠ 0) : decode w = .error .reservedBits := by
  rw [decode, if_pos (mt (fieldRsv_eq_zero_iff w).mp h)]

section
variable {w : Word} (clear : w.toNat / 2 ^ 29 = 0)
include clear

/-- R98: with the reserved bits clear, OP alone decides. -/
theorem decode_of_reserved_clear : decode w = decodeOp w := by
  rw [decode, if_neg (not_not_intro ((fieldRsv_eq_zero_iff w).mpr clear))]

theorem decode_illegalOp (op : w.toNat % 16 = 0 ∨ w.toNat % 16 = 15) : decode w = .error .illegalOp := by
  rcases op with op | op <;> simp [decode_of_reserved_clear clear, decodeOp, op]

theorem decode_pack (op : w.toNat % 16 = 1) : decode w = .ok (.pack (fieldCmd w) (fieldN w).toNat) := by
  simp [decode_of_reserved_clear clear, decodeOp, op]

theorem decode_parse (op : w.toNat % 16 = 2) : decode w = .ok (.parse (fieldCap w).toNat) := by
  simp [decode_of_reserved_clear clear, decodeOp, op]

theorem decode_send (op : w.toNat % 16 = 3) : decode w = .ok (.send (fieldN w).toNat) := by
  simp [decode_of_reserved_clear clear, decodeOp, op]

theorem decode_recv (op : w.toNat % 16 = 4) : decode w = .ok (.recv (fieldCap w).toNat (tcOfField (fieldTc w))) := by
  simp [decode_of_reserved_clear clear, decodeOp, op]

theorem decode_waitrdy (op : w.toNat % 16 = 5) : decode w = .ok (.waitrdy (tcOfField (fieldTc w))) := by
  simp [decode_of_reserved_clear clear, decodeOp, op]

theorem decode_isrdy (op : w.toNat % 16 = 6) : decode w = .ok .isrdy := by
  simp [decode_of_reserved_clear clear, decodeOp, op]

theorem decode_delay (op : w.toNat % 16 = 7) : decode w = .ok (.delay (fieldMs w).toNat) := by
  simp [decode_of_reserved_clear clear, decodeOp, op]

theorem decode_xact (op : w.toNat % 16 = 8) :
    decode w = .ok (.xact (fieldCmd w) (fieldN w).toNat (tcOfField (fieldTc w)) (fieldNa w) (fieldApl w).toNat) := by
  simp [decode_of_reserved_clear clear, decodeOp, op]

theorem decode_sendnb (op : w.toNat % 16 = 9) : decode w = .ok (.sendnb (fieldCmd w) (fieldN w).toNat) := by
  simp [decode_of_reserved_clear clear, decodeOp, op]

theorem decode_readack (op : w.toNat % 16 = 10) :
    decode w = .ok (.readack (fieldCap w).toNat (tcOfField (fieldTc w))) := by
  simp [decode_of_reserved_clear clear, decodeOp, op]

theorem decode_hz2reg (op : w.toNat % 16 = 11) : decode w = .ok .hz2reg := by
  simp [decode_of_reserved_clear clear, decodeOp, op]

theorem decode_reg2hz (op : w.toNat % 16 = 12) : decode w = .ok .reg2hz := by
  simp [decode_of_reserved_clear clear, decodeOp, op]

theorem decode_store (op : w.toNat % 16 = 13) : decode w = .ok .store := by
  simp [decode_of_reserved_clear clear, decodeOp, op]

theorem decode_restore (op : w.toNat % 16 = 14) : decode w = .ok .restore := by
  simp [decode_of_reserved_clear clear, decodeOp, op]

end

/-- R98: the words that are no operation. The reserved bits are looked at first, so OP is read only once they are clear. -/
theorem decode_illegal {w : Word} (h : w.toNat / 2 ^ 29 ≠ 0 ∨ w.toNat % 16 = 0 ∨ w.toNat % 16 = 15) :
    ∃ e, decode w = .error e := by
  by_cases clear : w.toNat / 2 ^ 29 = 0
  · exact ⟨.illegalOp, decode_illegalOp clear (h.resolve_left (not_not_intro clear))⟩
  · exact ⟨.reservedBits, decode_reserved clear⟩

/-- Settles O2: the decoder's answer for each opcode, its fields rewritten as arithmetic on the word. -/
theorem decodeFollowsTheOpcodeMap : Obligations.DecodeFollowsTheOpcodeMap := by
  unfold Obligations.DecodeFollowsTheOpcodeMap
  intro w
  refine ⟨decode_illegal, fun clear => ?_⟩
  rw [← toNat_fieldN, ← fieldCmd_eq_ofNat, ← toNat_fieldCap, ← toNat_fieldMs, ← fieldNa_eq_decide, ← toNat_fieldApl]
  refine ⟨decode_pack clear, decode_parse clear, decode_send clear, decode_isrdy clear, decode_delay clear, decode_sendnb clear,
    decode_hz2reg clear, decode_reg2hz clear, decode_store clear, decode_restore clear, fun tc hcode => ?_⟩
  have hclass : tcOfField (fieldTc w) = tc := tcOfField_fieldTc hcode
  subst hclass
  exact ⟨decode_recv clear, decode_waitrdy clear, decode_xact clear, decode_readack clear⟩

end Sys2Proof

/-! # 40_frame_codec.md: PACK and PARSE

The end of an operation comes from the checks that it passes; what the frame looks like comes from the law of the frame builder. -/
namespace Sys2Proof.Machine

/-! ### The ends of the operations -/

/-- R14, R94: the check of a command id is the range check. -/
theorem cmdLegal_eq_true_iff (p : Params) (cmd : Byte) :
    cmdLegal p cmd = true ↔ p.cmdFirst.toNat ≤ cmd.toNat ∧ cmd.toNat ≤ p.cmdLast.toNat := by
  simp [cmdLegal]

/-- R120: PACK once both of its checks pass. -/
theorem exec_pack_of_legal {cmd : Byte} {n : Nat} (s : State) (hcmd : cmdLegal s.params cmd = true) (hn : n ≤ 12) :
    exec (.pack cmd n) s = .next (finish .ok (packFrame cmd n s)) := by
  calc exec (.pack cmd n) s
    _ = execPack cmd n s := rfl
    _ = .next (finish .ok (packFrame cmd n s)) := by
      rw [execPack, if_neg (by simp [hcmd]), if_neg (Nat.not_lt.mpr hn)]

/-- R125: PARSE of a length that ParseAck rejects. -/
theorem exec_parse_of_rejected {cap : Nat} {s : State} (hcap : cap ≤ 23) (rejected : parseAck cap s = none) :
    exec (.parse cap) s = .next (finish .acklen s) := by
  calc exec (.parse cap) s
    _ = execParse cap s := rfl
    _ = .next (finish .acklen s) := by
      simp only [execParse, if_neg (Nat.not_lt.mpr hcap), rejected]

/-! ### The Information frame in TXF -/

section
variable (cmd : Byte) {n : Nat} (s : State) (hn : n ≤ 12)
include hn

/-- R119: at most 14, so the byte holds it. -/
theorem packFrame_lengthByte : ((packFrame cmd n s).txf 0).toNat = n + 2 := by
  have fits : n + 2 < 2 ^ 8 := by omega
  have lengthByte : (packFrame cmd n s).txf 0 = BitVec.ofNat 8 (n + 2) := by
    rw [State.txf, packFrame_readBuf cmd n s .txf 0 hn, if_pos ⟨rfl, rfl⟩]
  rw [lengthByte, BitVec.toNat_ofNat, Nat.mod_eq_of_lt fits]

/-- R119. -/
theorem packFrame_commandByte : (packFrame cmd n s).txf 1 = cmd := by
  rw [State.txf, packFrame_readBuf cmd n s .txf 1 hn, if_neg (by simp), if_pos ⟨rfl, rfl⟩]

/-- R119: the payload follows the two header bytes. -/
theorem packFrame_payloadByte {j : Nat} (hj : j < n) : (packFrame cmd n s).txf (2 + j) = s.pin j := by
  have inPayload : 2 ≤ 2 + j ∧ 2 + j < n + 2 := by omega
  rw [State.txf, packFrame_readBuf cmd n s .txf (2 + j) hn, if_neg (by omega), if_neg (by omega), if_pos ⟨rfl, inPayload⟩,
    Nat.add_sub_cancel_left]

end

/-! ### The statements -/

/-- Settles O21: both checks pass, so the frame is built and `finish` leaves it in TXF. -/
theorem packPutsTheFrameIntoTxf : Obligations.PackPutsTheFrameIntoTxf := by
  unfold Obligations.PackPutsTheFrameIntoTxf
  intro s cmd n hfirst hlast hn
  have legal : cmdLegal s.params cmd = true := (cmdLegal_eq_true_iff s.params cmd).mpr ⟨hfirst, hlast⟩
  refine ⟨finish .ok (packFrame cmd n s), exec_pack_of_legal s legal hn, rfl, ?lengthByte, ?commandByte, ?payload, ?frame⟩
  case lengthByte => exact packFrame_lengthByte cmd s hn
  case commandByte => exact packFrame_commandByte cmd s hn
  case payload => exact fun j hj => packFrame_payloadByte cmd s hn hj
  case frame => exact fun x hx => packFrame_read cmd n s x hx

/-- Settles O23: the bad lengths are those that ParseAck rejects, and a rejection goes straight to `finish`. -/
theorem parseRejectsExactlyBadLengths : Obligations.ParseRejectsExactlyBadLengths := by
  unfold Obligations.ParseRejectsExactlyBadLengths
  intro s cap hcap
  have rejectedIff := parseAck_eq_none cap s
  exact ⟨rejectedIff, fun bad => exec_parse_of_rejected hcap (rejectedIff.mpr bad)⟩

end Sys2Proof.Machine

/-! # 42_command_engine.md: what sets ANOMALY

A launch part leaves ANOMALY alone, and so does every step of the FSM but the one that parses; the two ends of the parse step say
the rest. -/
namespace Sys2Proof.Machine

/-! ### The launch parts and the host port -/

/-- An outcome of a move from `s` whose next state, if it has one, holds the ANOMALY of `s`. -/
def KeepsAnomaly (s : State) (o : Outcome) : Prop := ∀ t, o = .next t → t.anomaly = s.anomaly

theorem keepsAnomaly_next {s t : State} : KeepsAnomaly s (.next t) ↔ t.anomaly = s.anomaly :=
  ⟨fun h => h t rfl, fun h _ e => by cases e; exact h⟩

/-- R94: a failed check is a Fatal, which leaves ANOMALY, so only what follows the check is left to look at. -/
theorem keepsAnomaly_check {s : State} {o : Outcome} (p : Prop) [Decidable p] (c : FatalCause) (h : KeepsAnomaly s o) :
    KeepsAnomaly s (if p then .next (raiseFatal c s) else o) := by
  by_cases hp : p
  · rw [if_pos hp]; exact keepsAnomaly_next.mpr (by simp)
  · rw [if_neg hp]; exact h

/-- R124: ParseAck writes ACKINFO and APAY only, so what the anomaly check reads and writes stays. -/
theorem parseAck_frame {c : Nat} {s t : State} (h : parseAck c s = some t) :
    t.anomaly = s.anomaly ∧ t.op = s.op ∧ ∀ j, t.rxf j = s.rxf j := by
  obtain ⟨_, _, rfl⟩ := parseAck_eq_some c s t h
  exact ⟨rfl, rfl, fun j => storeApay_rxf s.mem _ _ j⟩

/-- R125: PARSE does no anomaly check. -/
theorem execParse_keepsAnomaly (cap : Nat) (s : State) : KeepsAnomaly s (execParse cap s) := by
  refine keepsAnomaly_check _ _ ?_
  cases h : parseAck cap s with
  | none => exact keepsAnomaly_next.mpr (by simp)
  | some t => exact keepsAnomaly_next.mpr (parseAck_frame h).1

/-- R180: the launch part of XACT packs the frame, takes the capacity and opens the send phase. -/
theorem execXact_keepsAnomaly (cmd : Byte) (n : Nat) (tc : TimeoutClass) (na : Bool) (apl : Nat) (s : State) :
    KeepsAnomaly s (execXact cmd n tc na apl s) := by
  refine keepsAnomaly_check _ _ (keepsAnomaly_check _ _ (keepsAnomaly_check _ _ (keepsAnomaly_next.mpr ?_)))
  cases na <;> simp

/-- R215: STORE writes DREG0 and DREG1 only. -/
theorem execStore_keepsAnomaly (s : State) : KeepsAnomaly s (execStore s) := by
  unfold execStore
  cases s.config.layout with
  | a => exact keepsAnomaly_check _ _ (keepsAnomaly_check _ _ (keepsAnomaly_next.mpr (by simp)))
  | b => exact keepsAnomaly_check _ _ (keepsAnomaly_next.mpr (by simp))

/-- R218: RESTORE writes FCINT and FCFRAC only. -/
theorem execRestore_keepsAnomaly (s : State) : KeepsAnomaly s (execRestore s) := by
  unfold execRestore
  cases s.config.layout with
  | a => exact keepsAnomaly_check _ _ (keepsAnomaly_next.mpr (by simp))
  | b => exact keepsAnomaly_next.mpr (by simp)

/-- R175: DELAY of no ticks ends at once, any other one enters DLY. -/
theorem execDelay_keepsAnomaly (ms : Nat) (s : State) : KeepsAnomaly s (execDelay ms s) := by
  unfold execDelay
  split <;> exact keepsAnomaly_next.mpr (by simp)

/-- R92: what clears ANOMALY at a launch stands before the launch part. -/
theorem exec_keepsAnomaly (i : Instr) (s : State) : KeepsAnomaly s (exec i s) := by
  cases i with
  | pack cmd n => exact keepsAnomaly_check _ _ (keepsAnomaly_check _ _ (keepsAnomaly_next.mpr (by simp)))
  | parse cap => exact execParse_keepsAnomaly cap s
  | send n => exact keepsAnomaly_check _ _ (keepsAnomaly_next.mpr (by simp))
  | recv cap tc => exact keepsAnomaly_check _ _ (keepsAnomaly_next.mpr (by simp))
  | waitrdy tc => exact keepsAnomaly_next.mpr (by simp)
  | isrdy => exact keepsAnomaly_next.mpr (by simp)
  | delay ms => exact execDelay_keepsAnomaly ms s
  | xact cmd n tc na apl => exact execXact_keepsAnomaly cmd n tc na apl s
  | sendnb cmd n => exact keepsAnomaly_check _ _ (keepsAnomaly_check _ _ (keepsAnomaly_next.mpr (by simp)))
  | readack cap tc => exact keepsAnomaly_check _ _ (keepsAnomaly_next.mpr (by simp))
  | hz2reg => exact keepsAnomaly_check _ _ (keepsAnomaly_next.mpr (by simp))
  | reg2hz => exact keepsAnomaly_check _ _ (keepsAnomaly_next.mpr (by simp))
  | store => exact execStore_keepsAnomaly s
  | restore => exact execRestore_keepsAnomaly s

/-- R92: a launch clears ANOMALY, and neither the launch part nor the Fatal of an illegal word sets it. -/
theorem launch_anomaly {v : Word} {s t : State} (h : launch v s = .next t) : t.anomaly = false := by
  cases hd : decode v with
  | error e =>
    rw [launch_illegal s hd] at h
    cases h
    simp
  | ok i =>
    rw [launch_legal s hd] at h
    simpa using exec_keepsAnomaly i (latchWord v s) t h

/-- R75 step 3: ANOMALY is part of no writable register. -/
theorem writeReg_anomaly (r : HostReg) (v : Word) (s : State) : (writeReg r v s).anomaly = s.anomaly := by
  cases r with
  | buf b w => cases b <;> rfl
  | _ => rfl

/-- R236: of the ends of a host write only the launch writes ANOMALY, and it clears it. -/
theorem hostWrite_anomaly {addr : BitVec 8} {v : Word} {s t : State} (h : hostWrite addr v s = .next t)
    (clear : s.anomaly = false) : t.anomaly = false := by
  rcases hostWrite_cases addr v s with
    ⟨_, e⟩ | ⟨r, _, ⟨_, e⟩ | ⟨_, _, e⟩ | ⟨_, _, _, e⟩ | ⟨_, _, _, e⟩ | ⟨_, _, _, _, e⟩⟩ <;> rw [e] at h
  · cases h; simp [clear]
  · cases h; simp [clear]
  · cases h; simp [clear]
  · cases h; simp [clear]
  · exact launch_anomaly h
  · cases h; simp [writeReg_anomaly, clear]

/-- R76: a read changes nothing but the responses. -/
theorem hostRead_anomaly (addr : BitVec 8) (s : State) : (hostRead addr s).anomaly = s.anomaly := by
  simp [hostRead]

/-- R100: a turn of WAITDONE is a read of STATUS and a change of the agenda. -/
theorem waitDoneTurn_anomaly (s : State) : (waitDoneTurn s).anomaly = s.anomaly := by
  unfold waitDoneTurn
  dsimp only
  split <;> exact hostRead_anomaly 0x04#8 s

/-! ### The parse step -/

/-- R183: a rejected length. -/
theorem parseStep_of_rejected {s : State} (h : parseAck (s.cap - 3) s = none) : parseStep s = finish .acklen s := by
  simp [parseStep, Config.ackHdr, h]

/-- R184: after an accepted length ANOMALY comes from the anomaly check and the result from the error byte alone. -/
theorem parseStep_of_accepted {s t : State} (h : parseAck (s.cap - 3) s = some t) :
    (parseStep s).anomaly = (s.anomaly || (s.isXact && decide ((s.rxf 0).toNat ≠ 3 + s.opApl))) ∧
      (parseStep s).result = if s.rxf 1 = 0#8 then .ok else .ackerr := by
  rcases parseStep_cases s with ⟨rejected, _⟩ | ⟨u, hu, e⟩
  · simp [h] at rejected
  · obtain ⟨hanomaly, hop, hrxf⟩ := parseAck_frame hu
    have hlen : Memory.readBuf u.mem .rxf 0 = s.rxf 0 := hrxf 0
    rw [e]
    simp [State.isXact, State.opCode, State.opApl, hanomaly, hop, hlen, Config.ackHdr]

/-- R124: the lengths that the parse step accepts. -/
theorem parseAck_accepts {s : State} (h3 : 3 ≤ (s.rxf 0).toNat) (hcap : (s.rxf 0).toNat ≤ s.cap) :
    ∃ t, parseAck (s.cap - 3) s = some t := by
  refine Option.ne_none_iff_exists'.mp fun rejected => ?_
  have := (parseAck_eq_none _ s).mp rejected
  omega

/-- R183, R184: the receive continuation raises ANOMALY by the parse step of XACT only. -/
theorem recvDone_raises {s : State} (clear : s.anomaly = false) (raised : (recvDone s).anomaly = true) :
    s.opCode = 0x8#4 ∧ 3 ≤ (s.rxf 0).toNat ∧ (s.rxf 0).toNat ≠ 3 + s.opApl := by
  unfold recvDone at raised
  split at raised
  · cases h : parseAck (s.cap - 3) s with
    | none => simp [parseStep_of_rejected h, clear] at raised
    | some t =>
      obtain ⟨h3, _, _⟩ := parseAck_eq_some _ _ _ h
      obtain ⟨hcode, hlen⟩ : s.opCode = 0x8#4 ∧ (s.rxf 0).toNat ≠ 3 + s.opApl := by
        simpa [(parseStep_of_accepted h).1, clear, State.isXact] using raised
      exact ⟨hcode, h3, hlen⟩
  · simp [clear] at raised

/-! ### The FSM and the machine -/

/-- R141: a poll step whose two continuations leave ANOMALY leaves it. -/
theorem pollStep_anomaly {target : Bool} {n : Nat} {onOK onTimeout : State → State} (s : State)
    (hOK : ∀ t, (onOK t).anomaly = t.anomaly) (hTimeout : ∀ t, (onTimeout t).anomaly = t.anomaly) :
    (pollStep target n onOK onTimeout s).anomaly = s.anomaly := by
  rcases pollStep_cases target n onOK onTimeout s with ⟨_, h⟩ | ⟨_, _, h⟩ | ⟨_, _, h⟩ <;> rw [h]
  · simp [hOK]
  · simp
  · simp [hTimeout]

/-- R181. -/
theorem sendDone_anomaly (s : State) : (sendDone s).anomaly = s.anomaly := by
  unfold sendDone; split <;> simp

/-- R184: in every state but R_WAIT_DONE. -/
theorem fsmStep_anomaly {s : State} (h : s.st ≠ .rWaitDone) : (fsmStep s).anomaly = s.anomaly := by
  cases hst : s.st with
  | rWaitDone => exact absurd hst h
  | idle => rw [fsmStep_idle hst]
  | fault => rw [fsmStep_fault hst]
  | sWaitIdle => rw [fsmStep_sWaitIdle hst]; exact pollStep_anomaly s (by simp) (by simp)
  | sWaitAccept => rw [fsmStep_sWaitAccept hst]; exact pollStep_anomaly s (by simp) (by simp)
  | sWaitDone => rw [fsmStep_sWaitDone hst]; exact pollStep_anomaly s (by simp [sendDone_anomaly]) (by simp)
  | rWaitReady => rw [fsmStep_rWaitReady hst]; exact pollStep_anomaly s (by simp) (by simp)
  | wWaitHigh => rw [fsmStep_wWaitHigh hst]; exact pollStep_anomaly s (by simp) (by simp)
  | sXfer => rw [fsmStep_sXfer hst]; unfold stepSXfer; dsimp only; split_ifs <;> simp
  | rXferLen => rw [fsmStep_rXferLen hst]; unfold stepRXferLen; dsimp only; split_ifs <;> simp
  | rXfer => rw [fsmStep_rXfer hst]; unfold stepRXfer; dsimp only; split_ifs <;> simp
  | dly => rw [fsmStep_dly hst]; unfold stepDly; dsimp only; split_ifs <;> simp
  | smp => rw [fsmStep_smp hst]; simp [stepSmp]

/-- R184: the one FSM step that raises ANOMALY is the last poll of XACT's receive phase; the release before the parse leaves the
length byte and the latched word as they are. -/
theorem fsmStep_raises {s : State} (clear : s.anomaly = false) (raised : (fsmStep s).anomaly = true) :
    s.st = .rWaitDone ∧ s.busyNext = true ∧ s.opCode = 0x8#4 ∧ 3 ≤ (s.rxf 0).toNat ∧ (s.rxf 0).toNat ≠ 3 + s.opApl := by
  by_cases hst : s.st = .rWaitDone
  case neg => simp [fsmStep_anomaly hst, clear] at raised
  case pos =>
    rw [fsmStep_rWaitDone hst, stepRWaitDone] at raised
    rcases pollStep_cases true s.nNotx (fun t => recvDone (csRelease t)) (abortPhase .timeout) s with
      ⟨high, h⟩ | ⟨_, _, h⟩ | ⟨_, _, h⟩ <;> rw [h] at raised
    · exact ⟨hst, high, recvDone_raises (s := csRelease (sampleBusy s)) clear raised⟩
    · simp [clear] at raised
    · simp [clear] at raised

/-- R184: of the moves of the machine only an FSM step raises ANOMALY. -/
theorem step_raises {s t : State} (h : step s = .next t) (clear : s.anomaly = false) (raised : t.anomaly = true) :
    s.st = .rWaitDone ∧ s.busyNext = true ∧ s.opCode = 0x8#4 ∧ 3 ≤ (s.rxf 0).toNat ∧ (s.rxf 0).toNat ≠ 3 + s.opApl := by
  rcases step_cases s with ⟨_, _, e⟩ | ⟨_, _, e⟩ | ⟨rest, _, e⟩ | ⟨addr, rest, _, e⟩ | ⟨addr, v, rest, _, e⟩ | ⟨rest, _, e⟩ |
    ⟨rest, _, e⟩ <;> rw [e] at h
  · cases h
  · cases h; exact fsmStep_raises clear raised
  · cases h; exact fsmStep_raises (s := { s with agenda := rest }) clear raised
  · cases h; simp [hostRead_anomaly, clear] at raised
  · simp [hostWrite_anomaly h clear] at raised
  · cases h; simp [waitDoneTurn_anomaly, clear] at raised
  · cases h; simp [blockReset, State.resetWith] at raised

/-! ### The statement -/

/-- Settles O37: the two ends of the parse step, PARSE as one launch part among the others, and the one move that raises ANOMALY. -/
theorem anomalyIsXactsLengthMismatch : Obligations.AnomalyIsXactsLengthMismatch := by
  unfold Obligations.AnomalyIsXactsLengthMismatch
  intro s
  refine ⟨fun _ h3 hcap => ?accepted, fun hcap bad => ?rejected, fun cap => exec_keepsAnomaly (.parse cap) s, fun t => step_raises⟩
  case accepted =>
    obtain ⟨t, ht⟩ := parseAck_accepts h3 hcap
    obtain ⟨anomaly, result⟩ := parseStep_of_accepted ht
    refine ⟨fun hcode hlen => ?_, fun hcode hlen => ?_, fun hcode => ?_, result⟩ <;> rw [anomaly]
    · simp [State.isXact, hcode, hlen]
    · simp [hlen]
    · simp [State.isXact, hcode]
  case rejected =>
    have rejected : parseAck (s.cap - 3) s = none := (parseAck_eq_none _ s).mpr (by omega)
    simp [parseStep_of_rejected rejected]

end Sys2Proof.Machine

/-! # 43_frequency.md: the closed form of REG2HZ, and the register layouts

Inside its domain each operation has one end. The closed form is one fraction brought to another denominator. The layouts are said as
arithmetic on the words once, and the round trips are arithmetic on those. -/
namespace Sys2Proof.Machine

/-! ### The ends of the operations -/

/-- R203: REG2HZ in its domain. -/
theorem exec_reg2hz_of_domain {s : State} (hi : s.fcint.toNat ≤ 63) (hf : s.fcfrac.toNat ≤ 2 ^ 19 - 1) :
    exec .reg2hz s =
      .next (finish .ok { s with freq := BitVec.ofNat 32 (regToHz s.fcint.toNat s.fcfrac.toNat) }) := by
  change execReg2hz s = _
  rw [execReg2hz, if_neg (by omega)]

/-- R215: STORE in the domain of Layout B. -/
theorem exec_store_layoutB {s : State} (layout : s.config.layout = .b) (hi : s.fcint.toNat ≤ 255)
    (hf : s.fcfrac.toNat < 2 ^ 24) :
    exec .store s =
      .next (finish .ok { s with dreg0 := storeB0 s.fcint s.fcfrac, dreg1 := storeB1 s.fcfrac }) := by
  change execStore s = _
  simp only [execStore, layout]
  rw [if_neg (by omega)]

/-- R215: STORE in the domain of Layout A, on a block that has it. -/
theorem exec_store_layoutA {s : State} (layout : s.config.layout = .a) (hasA : s.params.hasLayoutA = true)
    (hi : s.fcint.toNat ≤ 63) (hf : s.fcfrac.toNat < 2 ^ 19) :
    exec .store s =
      .next (finish .ok { s with dreg0 := storeA0 s.fcfrac, dreg1 := storeA1 s.fcint s.fcfrac }) := by
  change execStore s = _
  simp only [execStore, layout]
  rw [if_neg (by simp [hasA]), if_neg (by omega)]

/-- R218: RESTORE in Layout B has no check. -/
theorem exec_restore_layoutB {s : State} (layout : s.config.layout = .b) :
    exec .restore s =
      .next (finish .ok { s with fcint := restoreBInt s.dreg0, fcfrac := restoreBFrac s.dreg0 s.dreg1 }) := by
  change execRestore s = _
  simp only [execRestore, layout]

/-- R218: RESTORE in Layout A, on a block that has it. -/
theorem exec_restore_layoutA {s : State} (layout : s.config.layout = .a) (hasA : s.params.hasLayoutA = true) :
    exec .restore s =
      .next (finish .ok { s with fcint := restoreAInt s.dreg1, fcfrac := restoreAFrac s.dreg0 s.dreg1 }) := by
  change execRestore s = _
  simp only [execRestore, layout]
  rw [if_neg (by simp [hasA])]

/-! ### The closed form of REG2HZ -/

/-- R204: 52 + 5266/8192 = 431250/8192 = XO_HZ/2^19, so the two fractions differ by the factor 2^8 above and below. -/
theorem regToHz_eq_closedForm (fi ff : Nat) :
    regToHz fi ff = fi * 27600000 + (4 * (ff * 27600000) + 2 ^ 19) / 2 ^ 21 := by
  have oneFraction : (5266 * ff + 2048) / 2 ^ 13 + 52 * ff = (431250 * ff + 2048) / 2 ^ 13 := by omega
  have commonDenominator : (4 * (ff * 27600000) + 2 ^ 19) / 2 ^ 21 = (431250 * ff + 2048) / 2 ^ 13 := by
    calc (4 * (ff * 27600000) + 2 ^ 19) / 2 ^ 21
      _ = (2 ^ 8 * (431250 * ff + 2048)) / (2 ^ 8 * 2 ^ 13) := by ring_nf
      _ = (431250 * ff + 2048) / 2 ^ 13 := Nat.mul_div_mul_left _ _ (by norm_num)
  rw [regToHz, oneFraction, commonDenominator, Nat.add_comm]

/-! ### The layouts as arithmetic -/

/-- A concatenation is the upper part times the weight of its lowest bit, plus the lower part. -/
theorem toNat_append_eq_mul_add {n m : Nat} (x : BitVec n) (y : BitVec m) :
    (x ++ y).toNat = x.toNat * 2 ^ m + y.toNat := by
  rw [BitVec.toNat_append, ← Nat.shiftLeft_add_eq_or_of_lt y.isLt, Nat.shiftLeft_eq]

section
variable (fi ff : Word) (d0 d1 : BitVec 16)

/-- R210. -/
theorem toNat_storeB0 : (storeB0 fi ff).toNat = fi.toNat % 2 ^ 8 * 2 ^ 8 + ff.toNat / 2 ^ 16 % 2 ^ 8 := by
  rw [storeB0, toNat_append_eq_mul_add]
  simp [Nat.shiftRight_eq_div_pow]

/-- R210. -/
theorem toNat_storeB1 : (storeB1 ff).toNat = ff.toNat % 2 ^ 16 := by
  simp [storeB1]

/-- R210. -/
theorem toNat_restoreBInt : (restoreBInt d0).toNat = d0.toNat / 2 ^ 8 := by
  rw [restoreBInt, BitVec.toNat_setWidth, BitVec.extractLsb'_toNat, Nat.shiftRight_eq_div_pow]
  omega

/-- R210. -/
theorem toNat_restoreBFrac : (restoreBFrac d0 d1).toNat = d0.toNat % 2 ^ 8 * 2 ^ 16 + d1.toNat := by
  rw [restoreBFrac, BitVec.toNat_setWidth, toNat_append_eq_mul_add]
  simp only [BitVec.extractLsb'_toNat, Nat.shiftRight_zero]
  omega

/-- R212: FRACEN, bit 9, is stored as 1 and the bits above it as 0. -/
theorem toNat_storeA0 : (storeA0 ff).toNat = 2 ^ 9 + ff.toNat % 2 ^ 9 := by
  rw [storeA0, toNat_append_eq_mul_add]
  simp

/-- R212. -/
theorem toNat_storeA1 : (storeA1 fi ff).toNat = fi.toNat % 2 ^ 6 * 2 ^ 10 + ff.toNat / 2 ^ 9 % 2 ^ 10 := by
  rw [storeA1, toNat_append_eq_mul_add]
  simp [Nat.shiftRight_eq_div_pow]

/-- R212. -/
theorem toNat_restoreAInt : (restoreAInt d1).toNat = d1.toNat / 2 ^ 10 := by
  rw [restoreAInt, BitVec.toNat_setWidth, BitVec.extractLsb'_toNat, Nat.shiftRight_eq_div_pow]
  omega

/-- R212: bits 15:9 of DREG0 are not read. -/
theorem toNat_restoreAFrac : (restoreAFrac d0 d1).toNat = d1.toNat % 2 ^ 10 * 2 ^ 9 + d0.toNat % 2 ^ 9 := by
  rw [restoreAFrac, BitVec.toNat_setWidth, toNat_append_eq_mul_add]
  simp only [BitVec.extractLsb'_toNat, Nat.shiftRight_zero]
  omega

/-! ### Layout B there and back -/

/-- R215: what RESTORE writes in Layout B lies in the domain of STORE. -/
theorem restoreB_inDomain : (restoreBInt d0).toNat ≤ 255 ∧ (restoreBFrac d0 d1).toNat < 2 ^ 24 := by
  rw [toNat_restoreBInt, toNat_restoreBFrac]
  omega

theorem restoreBInt_storeB0 {fi : Word} (hi : fi.toNat ≤ 255) : restoreBInt (storeB0 fi ff) = fi := by
  apply BitVec.eq_of_toNat_eq
  rw [toNat_restoreBInt, toNat_storeB0]
  omega

theorem restoreBFrac_storeB {ff : Word} (hf : ff.toNat < 2 ^ 24) :
    restoreBFrac (storeB0 fi ff) (storeB1 ff) = ff := by
  apply BitVec.eq_of_toNat_eq
  rw [toNat_restoreBFrac, toNat_storeB0, toNat_storeB1]
  omega

theorem storeB0_restoreB : storeB0 (restoreBInt d0) (restoreBFrac d0 d1) = d0 := by
  apply BitVec.eq_of_toNat_eq
  rw [toNat_storeB0, toNat_restoreBInt, toNat_restoreBFrac]
  omega

theorem storeB1_restoreBFrac : storeB1 (restoreBFrac d0 d1) = d1 := by
  apply BitVec.eq_of_toNat_eq
  rw [toNat_storeB1, toNat_restoreBFrac]
  omega

/-! ### Layout A there and back -/

/-- R215: what RESTORE writes in Layout A lies in the domain of STORE. -/
theorem restoreA_inDomain : (restoreAInt d1).toNat ≤ 63 ∧ (restoreAFrac d0 d1).toNat < 2 ^ 19 := by
  rw [toNat_restoreAInt, toNat_restoreAFrac]
  omega

theorem restoreAInt_storeA1 {fi : Word} (hi : fi.toNat ≤ 63) : restoreAInt (storeA1 fi ff) = fi := by
  apply BitVec.eq_of_toNat_eq
  rw [toNat_restoreAInt, toNat_storeA1]
  omega

theorem restoreAFrac_storeA {ff : Word} (hf : ff.toNat < 2 ^ 19) :
    restoreAFrac (storeA0 ff) (storeA1 fi ff) = ff := by
  apply BitVec.eq_of_toNat_eq
  rw [toNat_restoreAFrac, toNat_storeA0, toNat_storeA1]
  omega

/-- R219: STORE writes bits 15:9 of DREG0 as 0b0000001 whatever RESTORE dropped there, so DREG0 comes back only if it held them. -/
theorem storeA0_restoreAFrac_eq_iff : storeA0 (restoreAFrac d0 d1) = d0 ↔ d0.toNat / 2 ^ 9 = 1 := by
  rw [← BitVec.toNat_inj, toNat_storeA0, toNat_restoreAFrac]
  omega

theorem storeA1_restoreA : storeA1 (restoreAInt d1) (restoreAFrac d0 d1) = d1 := by
  apply BitVec.eq_of_toNat_eq
  rw [toNat_storeA1, toNat_restoreAInt, toNat_restoreAFrac]
  omega

end

/-! ### The statements -/

/-- Settles O54: REG2HZ writes `regToHz` without loss, and `regToHz` has the closed form. -/
theorem registersToHzHasItsClosedForm : Obligations.RegistersToHzHasItsClosedForm := by
  unfold Obligations.RegistersToHzHasItsClosedForm
  intro s t hi hf launched
  rw [exec_reg2hz_of_domain hi hf] at launched
  cases launched
  calc (BitVec.ofNat 32 (regToHz s.fcint.toNat s.fcfrac.toNat)).toNat
    _ = regToHz s.fcint.toNat s.fcfrac.toNat := regToHz_toNat hi hf
    _ = s.fcint.toNat * 27600000 + (4 * (s.fcfrac.toNat * 27600000) + 2 ^ 19) / 2 ^ 21 := regToHz_eq_closedForm _ _

/-- Settles O58: the fields come back in each layout's domain, RESTORE always lands in the domain of STORE, and of the device
registers only DREG0 in Layout A can differ. -/
theorem layoutsRoundTrip : Obligations.LayoutsRoundTrip := by
  unfold Obligations.LayoutsRoundTrip
  intro s
  refine ⟨?restoreAfterStore, fun layout => ?storeAfterRestoreB, fun layout hasA => ?storeAfterRestoreA⟩
  case restoreAfterStore =>
    rintro (⟨layout, hi, hf⟩ | ⟨layout, hasA, hi, hf⟩)
    · exact ⟨_, _, exec_store_layoutB layout hi hf, exec_restore_layoutB layout,
        restoreBInt_storeB0 _ hi, restoreBFrac_storeB _ hf⟩
    · exact ⟨_, _, exec_store_layoutA layout hasA hi hf, exec_restore_layoutA layout hasA,
        restoreAInt_storeA1 _ hi, restoreAFrac_storeA _ hf⟩
  case storeAfterRestoreB =>
    obtain ⟨hi, hf⟩ := restoreB_inDomain s.dreg0 s.dreg1
    exact ⟨_, _, exec_restore_layoutB layout, exec_store_layoutB layout hi hf,
      storeB0_restoreB _ _, storeB1_restoreBFrac _ _⟩
  case storeAfterRestoreA =>
    obtain ⟨hi, hf⟩ := restoreA_inDomain s.dreg0 s.dreg1
    refine ⟨_, _, exec_restore_layoutA layout hasA, exec_store_layoutA layout hasA hi hf, ?onlyDreg0⟩
    case onlyDreg0 =>
      have dreg1Back := storeA1_restoreA s.dreg0 s.dreg1
      exact (and_iff_left dreg1Back).trans (storeA0_restoreAFrac_eq_iff s.dreg0 s.dreg1)

end Sys2Proof.Machine

/-! # 60_exceptions.md: the illegal operation word

The write is a launch, the launch of a word that is no operation is a Fatal, and the Fatal of a block with no open transport phase
records its cause and nothing else. -/
namespace Sys2Proof.Machine

/-- R80: a host write at the head of the agenda is the step. -/
theorem step_hostWrite {s : State} {addr : BitVec 8} {v : Word} {rest : List Move}
    (head : s.agenda = .host (.write addr v) :: rest) : step s = hostWrite addr v { s with agenda := rest } := by
  simp [step, head, hostAccess]

/-- R233: with no open transport phase there is no chip-select to release. -/
theorem raiseFatal_of_phase_closed (c : FatalCause) {s : State} (closed : s.st.phaseOpen = false) :
    raiseFatal c s = { s with fatal := true, fcause := c, result := .fatal, done := true, st := .fault } := by
  simp [raiseFatal, closed]

/-- R92, R233: the launch of a word that is no operation, with no open transport phase. -/
theorem launch_illegal_of_phase_closed {v : Word} {e : DecodeError} {s : State} (rejected : decode v = .error e)
    (closed : s.st.phaseOpen = false) :
    launch v s = .next { acceptWord v s with
      fatal := true, fcause := .illegalOp, result := .fatal, done := true, st := .fault } := by
  rw [launch_illegal s rejected, raiseFatal_of_phase_closed .illegalOp (by simpa using closed)]

/-- Settles O6: the write launches the word (R75), the decoder rejects it (R98), and IDLE is no open phase (R233). -/
theorem illegalWordEntersFault : Obligations.IllegalWordEntersFault := by
  unfold Obligations.IllegalWordEntersFault
  intro s v rest head notFatal idle illegal
  obtain ⟨e, rejected⟩ := decode_illegal illegal
  have notBusy : s.busy = false := by rw [State.busy, idle, FsmState.busy]
  have closed : s.st.phaseOpen = false := by rw [idle, FsmState.phaseOpen]
  calc step s
    _ = hostWrite 0x00#8 v { s with agenda := rest } := step_hostWrite head
    _ = launch v (respond (.write true) { s with agenda := rest }) := hostWrite_opword v _ notFatal notBusy
    _ = _ := launch_illegal_of_phase_closed rejected closed

end Sys2Proof.Machine

/-! # 70_reset_and_hazards.md: what changes DRVSTATE

Of the moves of the machine, reset writes DRVSTATE and the parse step that ends a receive phase does. No launch part, no other step of
the FSM and no host access does. -/
namespace Sys2Proof.Machine

/-! ### The launch parts and the host port -/

/-- An outcome of a move from `s` whose next state, if it has one, holds the DRVSTATE of `s`. -/
def KeepsDrvstate (s : State) (o : Outcome) : Prop := ∀ t, o = .next t → t.drvstate = s.drvstate

@[simp] theorem keepsDrvstate_next {s t : State} : KeepsDrvstate s (.next t) ↔ t.drvstate = s.drvstate := by
  simp [KeepsDrvstate]

@[simp] theorem keepsDrvstate_ite {s : State} {p : Prop} [Decidable p] {o₁ o₂ : Outcome} :
    KeepsDrvstate s (if p then o₁ else o₂) ↔ (p → KeepsDrvstate s o₁) ∧ (¬p → KeepsDrvstate s o₂) := by
  by_cases hp : p <;> simp [hp]

/-- R124: ParseAck writes ACKINFO and APAY. -/
theorem parseAck_drvstate {c : Nat} {s t : State} (h : parseAck c s = some t) : t.drvstate = s.drvstate := by
  obtain ⟨_, _, rfl⟩ := parseAck_eq_some c s t h
  rfl

/-- R125: PARSE does not copy the error and state bytes to DRVSTATE. -/
theorem execParse_keepsDrvstate (cap : Nat) (s : State) : KeepsDrvstate s (execParse cap s) := by
  cases h : parseAck cap s with
  | none => simp [execParse, h]
  | some t => simp [execParse, h, parseAck_drvstate h]

/-- R261: no launch part writes DRVSTATE. -/
theorem exec_keepsDrvstate (i : Instr) (s : State) : KeepsDrvstate s (exec i s) := by
  cases i with
  | pack cmd n => simp [exec, execPack]
  | parse cap => exact execParse_keepsDrvstate cap s
  | send n => simp [exec, execSend]
  | recv cap tc => simp [exec, execRecv]
  | waitrdy tc => simp [exec, execWaitrdy]
  | isrdy => simp [exec, execIsrdy]
  | delay ms => simp [exec, execDelay]
  | xact cmd n tc na apl => cases na <;> simp [exec, execXact]
  | sendnb cmd n => simp [exec, execSendnb]
  | readack cap tc => simp [exec, execReadack]
  | hz2reg => simp [exec, execHz2reg]
  | reg2hz => simp [exec, execReg2hz]
  | store => cases h : s.config.layout <;> simp [exec, execStore, h]
  | restore => cases h : s.config.layout <;> simp [exec, execRestore, h]

/-- R92: a launch clears STATUS flags only, and an illegal word is a Fatal. -/
theorem launch_keepsDrvstate (v : Word) (s : State) : KeepsDrvstate s (launch v s) := by
  cases hd : decode v with
  | error e => simp [launch_illegal s hd]
  | ok i =>
    rw [launch_legal s hd]
    intro t ht
    simpa using exec_keepsDrvstate i (latchWord v s) t ht

/-- R74: DRVSTATE is read-only, so no register write reaches it. -/
@[simp] theorem writeReg_drvstate (r : HostReg) (v : Word) (s : State) : (writeReg r v s).drvstate = s.drvstate := by
  cases r with
  | buf b w => cases b <;> rfl
  | _ => rfl

/-- R236: none of the ends of a host write changes DRVSTATE. -/
theorem hostWrite_keepsDrvstate (addr : BitVec 8) (v : Word) (s : State) : KeepsDrvstate s (hostWrite addr v s) := by
  rcases hostWrite_cases addr v s with
    ⟨_, e⟩ | ⟨r, _, ⟨_, e⟩ | ⟨_, _, e⟩ | ⟨_, _, _, e⟩ | ⟨_, _, _, e⟩ | ⟨_, _, _, _, e⟩⟩ <;> rw [e]
  · simp
  · simp
  · simp
  · simp
  · intro t ht
    simpa using launch_keepsDrvstate v _ t ht
  · simp

/-- R76: a read adds its response only. -/
@[simp] theorem hostRead_drvstate (addr : BitVec 8) (s : State) : (hostRead addr s).drvstate = s.drvstate := by
  simp [hostRead]

/-- R100: a turn of WAITDONE is a read of STATUS and a change of the agenda. -/
@[simp] theorem waitDoneTurn_drvstate (s : State) : (waitDoneTurn s).drvstate = s.drvstate := by
  simp [waitDoneTurn, apply_ite State.drvstate]

/-! ### The FSM -/

/-- R141: sampling and counting leave DRVSTATE, so a poll step changes it by its continuations only. -/
theorem pollStep_drvstate (target : Bool) (n : Nat) (onOK onTimeout : State → State) (s : State) :
    (pollStep target n onOK onTimeout s).drvstate =
      if s.busyNext = target then (onOK (sampleBusy s)).drvstate
      else if n ≤ s.k + 1 then (onTimeout (tick { sampleBusy s with k := s.k + 1 })).drvstate else s.drvstate := by
  simp [pollStep, apply_ite State.drvstate]

/-- R181: a send phase ends in a receive phase or in IDLE. -/
@[simp] theorem sendDone_drvstate (s : State) : (sendDone s).drvstate = s.drvstate := by
  simp [sendDone, apply_ite State.drvstate]

/-- R261: the FSM leaves DRVSTATE in every state but R_WAIT_DONE. -/
theorem fsmStep_drvstate {s : State} (h : s.st ≠ .rWaitDone) : (fsmStep s).drvstate = s.drvstate := by
  cases hst : s.st with
  | rWaitDone => exact absurd hst h
  | idle => rw [fsmStep_idle hst]
  | fault => rw [fsmStep_fault hst]
  | sWaitIdle => simp [fsmStep_sWaitIdle hst, stepSWaitIdle, pollStep_drvstate]
  | sWaitAccept => simp [fsmStep_sWaitAccept hst, stepSWaitAccept, pollStep_drvstate]
  | sXfer => simp [fsmStep_sXfer hst, stepSXfer, apply_ite State.drvstate]
  | sWaitDone => simp [fsmStep_sWaitDone hst, stepSWaitDone, pollStep_drvstate]
  | rWaitReady => simp [fsmStep_rWaitReady hst, stepRWaitReady, pollStep_drvstate]
  | rXferLen => simp [fsmStep_rXferLen hst, stepRXferLen, apply_ite State.drvstate]
  | rXfer => simp [fsmStep_rXfer hst, stepRXfer, apply_ite State.drvstate]
  | wWaitHigh => simp [fsmStep_wWaitHigh hst, stepWWaitHigh, pollStep_drvstate]
  | dly => simp [fsmStep_dly hst, stepDly, apply_ite State.drvstate]
  | smp => simp [fsmStep_smp hst, stepSmp]

/-- R183: a rejected length leaves DRVSTATE; an accepted one makes it VALID, with the error and state bytes of the reply. -/
theorem parseStep_drvstate (s : State) :
    (parseStep s).drvstate = if (parseAck (s.cap - 3) s).isSome then ⟨true, s.rxf 1, s.rxf 2⟩ else s.drvstate := by
  rcases parseStep_cases s with ⟨rejected, e⟩ | ⟨t, accepted, e⟩
  · simp [e, rejected]
  · simp [e, accepted]

/-- R146, R183: of the operations with a receive phase, XACT and READACK end it with the parse step; RECV does not. -/
theorem recvDone_drvstate {s : State} (changed : (recvDone s).drvstate ≠ s.drvstate) :
    (s.opCode = 0x8#4 ∨ s.opCode = 0xA#4) ∧ (recvDone s).drvstate = ⟨true, s.rxf 1, s.rxf 2⟩ := by
  by_cases parses : s.parsesAck = true
  · have isParse : recvDone s = parseStep s := by simp [recvDone, parses]
    rw [isParse] at changed ⊢
    have accepted : (parseAck (s.cap - 3) s).isSome = true :=
      by_contra fun rejected => changed (by rw [parseStep_drvstate, if_neg rejected])
    exact ⟨by simpa [State.parsesAck] using parses, by rw [parseStep_drvstate, if_pos accepted]⟩
  · simp [recvDone, parses] at changed

/-- The step from `s` to `t` is the last poll step of the receive phase of XACT or READACK, and DRVSTATE is what its parse step
writes (42_command_engine.md R183). -/
def ParsesIntoDrvstate (s t : State) : Prop :=
  s.st = .rWaitDone ∧ s.busyNext = true ∧ (s.opCode = 0x8#4 ∨ s.opCode = 0xA#4) ∧ t.drvstate = ⟨true, s.rxf 1, s.rxf 2⟩

/-- R261: the one FSM step that changes DRVSTATE. The sample and the release before the parse leave RXF and the latched word as they
are. -/
theorem fsmStep_changes_drvstate {s : State} (changed : (fsmStep s).drvstate ≠ s.drvstate) : ParsesIntoDrvstate s (fsmStep s) := by
  have last : s.st = .rWaitDone := by_contra fun other => changed (fsmStep_drvstate other)
  have polled : (fsmStep s).drvstate =
      if s.busyNext = true then (recvDone (csRelease (sampleBusy s))).drvstate else s.drvstate := by
    simp [fsmStep_rWaitDone last, stepRWaitDone, pollStep_drvstate]
  by_cases high : s.busyNext = true
  · rw [if_pos high] at polled
    rw [polled] at changed
    obtain ⟨parses, written⟩ := recvDone_drvstate (s := csRelease (sampleBusy s)) changed
    exact ⟨last, high, parses, polled.trans written⟩
  · rw [if_neg high] at polled
    exact absurd polled changed

/-! ### The statement -/

/-- Settles O39: of the moves of the machine, the reads and writes of the host and its WAITDONE leave DRVSTATE, and the FSM changes
it by a parse only. -/
theorem drvstateChangesOnlyByAParse : Obligations.DrvstateChangesOnlyByAParse := by
  unfold Obligations.DrvstateChangesOnlyByAParse
  intro s t h changed
  rcases step_cases s with ⟨_, _, e⟩ | ⟨_, _, e⟩ | ⟨rest, _, e⟩ | ⟨addr, rest, _, e⟩ | ⟨addr, v, rest, _, e⟩ | ⟨rest, _, e⟩ |
    ⟨rest, head, e⟩ <;> rw [e] at h
  · cases h
  · cases h; exact .inr (fsmStep_changes_drvstate changed)
  · cases h; exact .inr (fsmStep_changes_drvstate (s := { s with agenda := rest }) changed)
  · cases h; simp at changed
  · exact absurd (hostWrite_keepsDrvstate addr v _ t h) changed
  · cases h; simp at changed
  · exact .inl ⟨rest, head⟩

end Sys2Proof.Machine

/-! # 30_encoding.md: there and back

An operation word is its fields put together, so encoding and decoding are compared field by field. -/
namespace Sys2Proof

/-! ### Decoding an assembled word -/

/-- R98: the reserved bits of an assembled word are clear, so OP alone decides. -/
theorem decode_assembleFO (cap apl : BitVec 5) (na : Bool) (tc : BitVec 2) (cmd : BitVec 8) (n op : BitVec 4) :
    decode (assembleFO cap apl na tc cmd n op) = decodeOp (assembleFO cap apl na tc cmd n op) := by
  rw [decode, fieldRsv_assembleFO, if_neg (not_not_intro rfl)]

/-- R98: the same for format FD. -/
theorem decode_assembleFD (ms : BitVec 16) (op : BitVec 4) : decode (assembleFD ms op) = decodeOp (assembleFD ms op) := by
  rw [decode, fieldRsv_assembleFD, if_neg (not_not_intro rfl)]

/-- Settles O1: the word of each operation has the operation's OP and, in the fields that OP reads, its operands. -/
theorem decodeOfEncodeIsTheOperation : Obligations.DecodeOfEncodeIsTheOperation := by
  unfold Obligations.DecodeOfEncodeIsTheOperation
  intro i wf
  cases i with
  | pack cmd n | sendnb cmd n | send n =>
    have fits : n < 16 := by simpa [Instr.wellFormed, fitsN] using wf
    simp [encode, decode_assembleFO, decodeOp, fits]
  | parse cap | recv cap tc | readack cap tc =>
    have fits : cap < 32 := by simpa [Instr.wellFormed, fits5] using wf
    simp [encode, decode_assembleFO, decodeOp, fits]
  | delay ms =>
    have fits : ms < 65536 := by simpa [Instr.wellFormed, fitsMs] using wf
    simp [encode, decode_assembleFD, decodeOp, fits]
  | xact cmd n tc na apl =>
    obtain ⟨fitsN, fitsApl⟩ : n < 16 ∧ apl < 32 := by simpa [Instr.wellFormed, Sys2Proof.fitsN, fits5] using wf
    simp [encode, decode_assembleFO, decodeOp, fitsN, fitsApl]
  | waitrdy tc | isrdy | hz2reg | reg2hz | store | restore =>
    simp [encode, decode_assembleFO, decodeOp]

/-! ### What a decoded operation says of its word -/

/-- R93, R94: the word has the operation's OP, and its fields hold the operation's operands. -/
def Instr.HeldBy (w : Word) : Instr → Prop
  | .pack cmd n => fieldOp w = 1#4 ∧ cmd = fieldCmd w ∧ n = (fieldN w).toNat
  | .parse cap => fieldOp w = 2#4 ∧ cap = (fieldCap w).toNat
  | .send n => fieldOp w = 3#4 ∧ n = (fieldN w).toNat
  | .recv cap tc => fieldOp w = 4#4 ∧ cap = (fieldCap w).toNat ∧ tc = tcOfField (fieldTc w)
  | .waitrdy tc => fieldOp w = 5#4 ∧ tc = tcOfField (fieldTc w)
  | .isrdy => fieldOp w = 6#4
  | .delay ms => fieldOp w = 7#4 ∧ ms = (fieldMs w).toNat
  | .xact cmd n tc na apl =>
    fieldOp w = 8#4 ∧ cmd = fieldCmd w ∧ n = (fieldN w).toNat ∧ tc = tcOfField (fieldTc w) ∧ na = fieldNa w ∧
      apl = (fieldApl w).toNat
  | .sendnb cmd n => fieldOp w = 9#4 ∧ cmd = fieldCmd w ∧ n = (fieldN w).toNat
  | .readack cap tc => fieldOp w = 10#4 ∧ cap = (fieldCap w).toNat ∧ tc = tcOfField (fieldTc w)
  | .hz2reg => fieldOp w = 11#4
  | .reg2hz => fieldOp w = 12#4
  | .store => fieldOp w = 13#4
  | .restore => fieldOp w = 14#4

/-- R93: what the decoder answers on OP alone is held by the word. -/
theorem heldBy_of_decodeOp {w : Word} {i : Instr} (h : decodeOp w = .ok i) : i.HeldBy w := by
  unfold decodeOp at h
  generalize hop : fieldOp w = op at h
  have code : ∀ k, op.toNat = k → k < 16 → fieldOp w = BitVec.ofNat 4 k := by
    intro k hk hlt
    rw [hop, ← hk, BitVec.ofNat_toNat, BitVec.setWidth_eq]
  split at h <;> cases h <;> simp_all [Instr.HeldBy]

/-- R98: a legal word has clear reserved bits and holds the operation that it decodes to. -/
theorem decode_eq_ok {w : Word} {i : Instr} (h : decode w = .ok i) : fieldRsv w = 0#3 ∧ i.HeldBy w := by
  unfold decode at h
  split at h
  · cases h
  · next clear => exact ⟨not_not.mp clear, heldBy_of_decodeOp h⟩

/-! ### The word put together again -/

/-- R95: every code of TC names a class, whose code it is. -/
@[simp] theorem fieldOfTc_tcOfField (b : BitVec 2) : fieldOfTc (tcOfField b) = b := by
  revert b; decide

/-- R90: NA as a number. -/
theorem toNat_fieldNa (w : Word) : (fieldNa w).toNat = w.toNat / 2 ^ 18 % 2 := by
  rw [fieldNa_eq_decide]
  rcases Nat.mod_two_eq_zero_or_one (w.toNat / 2 ^ 18) with h | h <;> rw [h] <;> rfl

/-- R90: CMD as a number. -/
theorem toNat_fieldCmd (w : Word) : (fieldCmd w).toNat = w.toNat / 2 ^ 8 % 2 ^ 8 := by
  rw [fieldCmd_eq_ofNat, BitVec.toNat_ofNat]

/-- R90: a word with clear reserved bits is its fields of format FO put together. -/
theorem assembleFO_fields {w : Word} (clear : fieldRsv w = 0#3) :
    assembleFO (fieldCap w) (fieldApl w) (fieldNa w) (fieldTc w) (fieldCmd w) (fieldN w) (fieldOp w) = w := by
  have high : w.toNat / 2 ^ 29 = 0 := (fieldRsv_eq_zero_iff w).mp clear
  apply BitVec.eq_of_toNat_eq
  simp only [assembleFO, Machine.toNat_append_eq_mul_add, toNat_fieldCap, toNat_fieldApl, toNat_fieldTc, toNat_fieldN, toNat_fieldOp,
    toNat_fieldNa, toNat_fieldCmd, BitVec.toNat_ofNat, BitVec.toNat_ofBool]
  omega

/-- R90, R91: the bits that an FD word takes as MS are those that an FO word takes as APL, NA, TC and CMD. -/
theorem assembleFD_eq_assembleFO (w : Word) (op : BitVec 4) :
    assembleFD (fieldMs w) op = assembleFO 0#5 (fieldApl w) (fieldNa w) (fieldTc w) (fieldCmd w) 0#4 op := by
  apply BitVec.eq_of_toNat_eq
  simp only [assembleFO, assembleFD, Machine.toNat_append_eq_mul_add, toNat_fieldApl, toNat_fieldTc, toNat_fieldMs,
    toNat_fieldNa, toNat_fieldCmd, BitVec.toNat_ofNat, BitVec.toNat_ofBool]
  omega

/-- R90: a mask of format FO acts on each field by itself. -/
theorem assembleFO_and (cap cap' apl apl' : BitVec 5) (na na' : Bool) (tc tc' : BitVec 2) (cmd cmd' : BitVec 8)
    (n n' op op' : BitVec 4) :
    assembleFO cap apl na tc cmd n op &&& assembleFO cap' apl' na' tc' cmd' n' op' =
      assembleFO (cap &&& cap') (apl &&& apl') (na && na') (tc &&& tc') (cmd &&& cmd') (n &&& n') (op &&& op') := by
  have flag : BitVec.ofBool (na && na') = BitVec.ofBool na &&& BitVec.ofBool na' := by simp
  unfold assembleFO
  rw [flag]
  iterate 7 refine BitVec.and_append.trans (congrArg (· ++ _) ?_)
  rfl

/-- R90: a legal word under a mask of format FO. -/
theorem and_assembleFO {w : Word} (clear : fieldRsv w = 0#3) (cap apl : BitVec 5) (na : Bool) (tc : BitVec 2) (cmd : BitVec 8)
    (n op : BitVec 4) :
    w &&& assembleFO cap apl na tc cmd n op =
      assembleFO (fieldCap w &&& cap) (fieldApl w &&& apl) (fieldNa w && na) (fieldTc w &&& tc) (fieldCmd w &&& cmd)
        (fieldN w &&& n) (fieldOp w &&& op) := by
  conv_lhs => rw [← assembleFO_fields clear, assembleFO_and]

/-- R94: the operation that a legal word holds fits its fields. -/
theorem wellFormed_of_heldBy {w : Word} {i : Instr} (h : i.HeldBy w) : i.wellFormed = true := by
  cases i with
  | pack cmd n | sendnb cmd n => obtain ⟨_, _, rfl⟩ := h; simpa [Instr.wellFormed, fitsN] using (fieldN w).isLt
  | send n => obtain ⟨_, rfl⟩ := h; simpa [Instr.wellFormed, fitsN] using (fieldN w).isLt
  | parse cap => obtain ⟨_, rfl⟩ := h; simpa [Instr.wellFormed, fits5] using (fieldCap w).isLt
  | recv cap tc | readack cap tc => obtain ⟨_, rfl, _⟩ := h; simpa [Instr.wellFormed, fits5] using (fieldCap w).isLt
  | delay ms => obtain ⟨_, rfl⟩ := h; simpa [Instr.wellFormed, fitsMs] using (fieldMs w).isLt
  | xact cmd n tc na apl =>
    obtain ⟨_, _, rfl, _, _, rfl⟩ := h
    simpa [Instr.wellFormed, fitsN, fits5] using And.intro (fieldN w).isLt (fieldApl w).isLt
  | waitrdy tc | isrdy | hz2reg | reg2hz | store | restore => rfl

/-- R94, R99: the fields that the operation ignores are 0 in its word, and the mask, a word of whole fields, clears them. -/
theorem encode_of_heldBy {w : Word} {i : Instr} (clear : fieldRsv w = 0#3) (h : i.HeldBy w) :
    encode i = w &&& Machine.readMask i := by
  have masked := and_assembleFO clear
  cases i with
  | pack cmd n | sendnb cmd n =>
    obtain ⟨op, rfl, rfl⟩ := h
    rw [show Machine.readMask _ = assembleFO 0#5 0#5 false 0#2 (.allOnes 8) (.allOnes 4) (.allOnes 4) by rfl, masked]
    simp only [BitVec.and_allOnes]
    simp [encode, op]
  | parse cap =>
    obtain ⟨op, rfl⟩ := h
    rw [show Machine.readMask _ = assembleFO (.allOnes 5) 0#5 false 0#2 0#8 0#4 (.allOnes 4) by rfl, masked]
    simp only [BitVec.and_allOnes]
    simp [encode, op]
  | send n =>
    obtain ⟨op, rfl⟩ := h
    rw [show Machine.readMask _ = assembleFO 0#5 0#5 false 0#2 0#8 (.allOnes 4) (.allOnes 4) by rfl, masked]
    simp only [BitVec.and_allOnes]
    simp [encode, op]
  | recv cap tc | readack cap tc =>
    obtain ⟨op, rfl, rfl⟩ := h
    rw [show Machine.readMask _ = assembleFO (.allOnes 5) 0#5 false (.allOnes 2) 0#8 0#4 (.allOnes 4) by rfl, masked]
    simp only [BitVec.and_allOnes]
    simp [encode, op]
  | waitrdy tc =>
    obtain ⟨op, rfl⟩ := h
    rw [show Machine.readMask _ = assembleFO 0#5 0#5 false (.allOnes 2) 0#8 0#4 (.allOnes 4) by rfl, masked]
    simp only [BitVec.and_allOnes]
    simp [encode, op]
  | delay ms =>
    obtain ⟨op, rfl⟩ := h
    rw [show Machine.readMask _ = assembleFO 0#5 (.allOnes 5) true (.allOnes 2) (.allOnes 8) 0#4 (.allOnes 4) by rfl, masked]
    simp only [BitVec.and_allOnes]
    simp [encode, op, assembleFD_eq_assembleFO]
  | xact cmd n tc na apl =>
    obtain ⟨op, rfl, rfl, rfl, rfl, rfl⟩ := h
    rw [show Machine.readMask _ = assembleFO 0#5 (.allOnes 5) true (.allOnes 2) (.allOnes 8) (.allOnes 4) (.allOnes 4) by rfl, masked]
    simp only [BitVec.and_allOnes]
    simp [encode, op]
  | isrdy | hz2reg | reg2hz | store | restore =>
    have op : fieldOp w = _ := h
    rw [show Machine.readMask _ = assembleFO 0#5 0#5 false 0#2 0#8 0#4 (.allOnes 4) by rfl, masked]
    simp [encode, op]

/-- Settles O3: a legal word holds what it decodes to, and of an operation's word the fields it reads are left. -/
theorem encodeKeepsEveryReadBit : Obligations.EncodeKeepsEveryReadBit := by
  unfold Obligations.EncodeKeepsEveryReadBit
  intro w i h
  obtain ⟨clear, held⟩ := decode_eq_ok h
  exact ⟨wellFormed_of_heldBy held, encode_of_heldBy clear held⟩

/-- Settles O4: R99's table has one line per example. -/
theorem specExampleWordsDecode : Obligations.SpecExampleWordsDecode := by
  unfold Obligations.SpecExampleWordsDecode
  refine ⟨?pack, ?recv, ?delay, ?xact, ?xactNa, ?readack⟩
  case pack => exact decodeOfEncodeIsTheOperation (.pack 0x21#8 5) rfl
  case recv => exact decodeOfEncodeIsTheOperation (.recv 26 .txrx) rfl
  case delay => exact decodeOfEncodeIsTheOperation (.delay 100) rfl
  case xact => exact decodeOfEncodeIsTheOperation (.xact 0x21#8 5 .notx false 5) rfl
  case xactNa => exact decodeOfEncodeIsTheOperation (.xact 0x10#8 0 .notx true 0) rfl
  case readack => exact decodeOfEncodeIsTheOperation (.readack 26 .tx) rfl

end Sys2Proof

/-! # The moves of the machine

For each of the three parts of a move, once, everything it can do: the launch part of an operation (30_encoding.md R92, R94), one step of
the FSM (41_transport.md R140 to R175), and the step that takes the next entry of the agenda (20_memory.md R80). What is kept along a run is
then shown once per case. -/
namespace Sys2Proof.Machine

/-! ### The launch parts -/

/-- The next states of the launch part of an operation: a Fatal when a check of R94 fails, else one case for each operation. -/
inductive Launched (s : State) : Instr → State → Prop where
  | fatal {i : Instr} (c : FatalCause) (named : c ≠ .none) : Launched s i (raiseFatal c s)
  | pack {cmd : Byte} {n : Nat} (short : n ≤ 12) : Launched s (.pack cmd n) (finish .ok (packFrame cmd n s))
  | parseRejected {cap : Nat} : Launched s (.parse cap) (finish .acklen s)
  | parseAccepted {cap : Nat} {u : State} (fits : cap ≤ 23) (accepted : parseAck cap s = some u) :
      Launched s (.parse cap) (finish .ok u)
  | send {n : Nat} (enough : 1 ≤ n) (short : n ≤ 14) : Launched s (.send n) (openSend n s)
  | recv {cap : Nat} {tc : TimeoutClass} (enough : 1 ≤ cap) (fits : cap ≤ 26) :
      Launched s (.recv cap tc) (openReceive { s with cap := cap })
  | waitrdy {tc : TimeoutClass} : Launched s (.waitrdy tc) (enterWait .wWaitHigh s)
  | isrdy : Launched s .isrdy (goto .smp (setRdy false s))
  | delayNone {ms : Nat} (zero : delayTicks s.params ms = 0) : Launched s (.delay ms) (finish .ok s)
  | delay {ms : Nat} (nonzero : delayTicks s.params ms ≠ 0) :
      Launched s (.delay ms) (goto .dly { s with d := delayTicks s.params ms })
  | xactNoAck {cmd : Byte} {n : Nat} {tc : TimeoutClass} {apl : Nat} (short : n ≤ 12) :
      Launched s (.xact cmd n tc true apl) (openSend (n + 2) (packFrame cmd n s))
  | xactAck {cmd : Byte} {n : Nat} {tc : TimeoutClass} {apl : Nat} (short : n ≤ 12) (fits : apl ≤ 23) :
      Launched s (.xact cmd n tc false apl)
        (openSend (n + 2) { packFrame cmd n s with cap := xactCap s.config.capMode apl })
  | sendnb {cmd : Byte} {n : Nat} (short : n ≤ 12) : Launched s (.sendnb cmd n) (openSend (n + 2) (packFrame cmd n s))
  | readack {cap : Nat} {tc : TimeoutClass} (enough : 3 ≤ cap) (fits : cap ≤ 26) :
      Launched s (.readack cap tc) (openReceive { s with cap := cap })
  | codec {i : Instr} (isCodec : i = .hz2reg ∨ i = .reg2hz ∨ i = .store ∨ i = .restore) (freq fcint fcfrac : Word)
      (dreg0 dreg1 : BitVec 16) :
      Launched s i (finish .ok { s with freq := freq, fcint := fcint, fcfrac := fcfrac, dreg0 := dreg0, dreg1 := dreg1 })

/-- R94: a failed check is one of the cases, so only what follows the check is left to look at. -/
theorem launched_check {s : State} {i : Instr} {o : Outcome} (p : Prop) [Decidable p] {c : FatalCause} (named : c ≠ .none)
    (h : ¬p → ∃ t, o = .next t ∧ Launched s i t) :
    ∃ t, (if p then .next (raiseFatal c s) else o) = Host.Outcome.next t ∧ Launched s i t := by
  by_cases hp : p
  · exact ⟨_, if_pos hp, .fatal c named⟩
  · rw [if_neg hp]; exact h hp

/-- R94, R96: the launch part of every operation has one of these next states. -/
theorem exec_launched (i : Instr) (s : State) : ∃ t, exec i s = .next t ∧ Launched s i t := by
  cases i with
  | pack cmd n =>
    refine launched_check _ (by decide) fun _ => launched_check _ (by decide) fun short => ?_
    exact ⟨_, rfl, .pack (Nat.not_lt.mp short)⟩
  | parse cap =>
    refine launched_check _ (by decide) fun fits => ?_
    cases h : parseAck cap s with
    | none => exact ⟨_, rfl, .parseRejected⟩
    | some u => exact ⟨_, rfl, .parseAccepted (Nat.not_lt.mp fits) h⟩
  | send n => exact launched_check _ (by decide) fun legal => ⟨_, rfl, .send (by omega) (by omega)⟩
  | recv cap tc =>
    exact launched_check _ (by decide) fun legal =>
      ⟨_, rfl, .recv (Nat.not_lt.mp (not_or.mp legal).1) (Nat.not_lt.mp (not_or.mp legal).2)⟩
  | waitrdy tc => exact ⟨_, rfl, .waitrdy⟩
  | isrdy => exact ⟨_, rfl, .isrdy⟩
  | delay ms =>
    by_cases h : delayTicks s.params ms = 0
    · exact ⟨_, if_pos h, .delayNone h⟩
    · exact ⟨_, if_neg h, .delay h⟩
  | xact cmd n tc na apl =>
    refine launched_check _ (by decide) fun _ => launched_check _ (by decide) fun short =>
      launched_check _ (by decide) fun fits => ?_
    cases na with
    | true => exact ⟨_, rfl, .xactNoAck (Nat.not_lt.mp short)⟩
    | false => exact ⟨_, rfl, .xactAck (Nat.not_lt.mp short) (Nat.not_lt.mp fun long => fits ⟨rfl, long⟩)⟩
  | sendnb cmd n =>
    refine launched_check _ (by decide) fun _ => launched_check _ (by decide) fun short => ?_
    exact ⟨_, rfl, .sendnb (Nat.not_lt.mp short)⟩
  | readack cap tc =>
    exact launched_check _ (by decide) fun legal =>
      ⟨_, rfl, .readack (Nat.not_lt.mp (not_or.mp legal).1) (Nat.not_lt.mp (not_or.mp legal).2)⟩
  | hz2reg => exact launched_check _ (by decide) fun _ => ⟨_, rfl, .codec (by simp) _ _ _ _ _⟩
  | reg2hz => exact launched_check _ (by decide) fun _ => ⟨_, rfl, .codec (by simp) _ _ _ _ _⟩
  | store =>
    change ∃ t, execStore s = .next t ∧ _
    unfold execStore
    cases s.config.layout with
    | a => exact launched_check _ (by decide) fun _ => launched_check _ (by decide) fun _ => ⟨_, rfl, .codec (by simp) _ _ _ _ _⟩
    | b => exact launched_check _ (by decide) fun _ => ⟨_, rfl, .codec (by simp) _ _ _ _ _⟩
  | restore =>
    change ∃ t, execRestore s = .next t ∧ _
    unfold execRestore
    cases s.config.layout with
    | a => exact launched_check _ (by decide) fun _ => ⟨_, rfl, .codec (by simp) _ _ _ _ _⟩
    | b => exact ⟨_, rfl, .codec (by simp) _ _ _ _ _⟩

theorem launched_of_exec {i : Instr} {s t : State} (h : exec i s = .next t) : Launched s i t := by
  obtain ⟨u, hu, launched⟩ := exec_launched i s
  rw [h] at hu
  cases hu
  exact launched

/-! ### The FSM -/

/-- The states that poll the busy line (41_transport.md R141). -/
def FsmState.waiting : FsmState → Bool
  | .sWaitIdle | .sWaitAccept | .sWaitDone | .rWaitReady | .rWaitDone | .wWaitHigh => true
  | .idle | .sXfer | .rXferLen | .rXfer | .dly | .smp | .fault => false

/-- The level that ends a wait (41_transport.md R144, R146, R160). -/
def FsmState.awaits : FsmState → Bool
  | .sWaitAccept | .rWaitReady => false
  | .idle | .sWaitIdle | .sXfer | .sWaitDone | .rXferLen | .rXfer | .rWaitDone | .wWaitHigh | .dly | .smp | .fault => true

/-- The samples that a wait takes before it times out (41_transport.md R143, R160): the class of the latched word bounds the receive phase's
first wait and WAITRDY. -/
def State.waitBound (s : State) : Nat :=
  match s.st with
  | .rWaitReady | .wWaitHigh => pollBound s.params s.opTc
  | .idle | .sWaitIdle | .sWaitAccept | .sXfer | .sWaitDone | .rXferLen | .rXfer | .rWaitDone | .dly | .smp | .fault => s.nNotx

/-- What a parse step writes before it ends, when it accepts the length (42_command_engine.md R183). -/
def acceptReply (s : State) : State :=
  { s with
    drvstate := ⟨true, s.rxf 1, s.rxf 2⟩
    ackinfo := ⟨BitVec.ofNat 5 ((s.rxf 0).toNat - 3), s.rxf 2, s.rxf 1, s.rxf 0⟩
    mem := Memory.storeBytes s.mem .apay 0 (fun j => s.rxf (3 + j)) ((s.rxf 0).toNat - 3) }

/-- The result of a parse step that accepts the length (42_command_engine.md R183). -/
def replyResult (s : State) : OpResult := if s.rxf 1 = 0#8 then .ok else .ackerr

/-- A received byte stored as the length (41_transport.md R146). -/
def takeLength (s : State) : State := { setRxf 0 s.rxNext (spiXchg Config.dummyByte s) with lenByte := s.rxNext }

/-- A received byte stored as the next byte of the reply (41_transport.md R146). -/
def takeByte (s : State) : State := { setRxf s.i s.rxNext (spiXchg Config.dummyByte s) with i := s.i + 1 }

/-- A byte of the frame shifted out (41_transport.md R144). -/
def shiftByte (s : State) : State := { spiXchg (s.txf s.i) s with i := s.i + 1 }

/-- A sample at the wrong level: one tick and one count (41_transport.md R141). -/
def missedSample (s : State) : State := tick { sampleBusy s with k := s.k + 1 }

/-- Every field after the length byte is taken. -/
@[simp] theorem takeLength_fields (s : State) :
    (takeLength s).params = s.params ∧ (takeLength s).opword = s.opword ∧ (takeLength s).done = s.done ∧
    (takeLength s).fatal = s.fatal ∧ (takeLength s).result = s.result ∧ (takeLength s).anomaly = s.anomaly ∧
    (takeLength s).rdy = s.rdy ∧ (takeLength s).fcause = s.fcause ∧ (takeLength s).config = s.config ∧
    (takeLength s).drvstate = s.drvstate ∧ (takeLength s).ackinfo = s.ackinfo ∧ (takeLength s).freq = s.freq ∧
    (takeLength s).fcint = s.fcint ∧ (takeLength s).fcfrac = s.fcfrac ∧ (takeLength s).dreg0 = s.dreg0 ∧
    (takeLength s).dreg1 = s.dreg1 ∧ (takeLength s).mem = Memory.writeBuf s.mem .rxf 0 s.rxNext ∧
    (takeLength s).st = s.st ∧ (takeLength s).op = s.op ∧ (takeLength s).k = s.k ∧ (takeLength s).i = s.i ∧
    (takeLength s).len = s.len ∧ (takeLength s).cap = s.cap ∧ (takeLength s).lenByte = s.rxNext ∧ (takeLength s).d = s.d ∧
    (takeLength s).csN = s.csN ∧ (takeLength s).trace = s.trace ++ [.xfer 0xFF#8 s.rxNext] ∧
    (takeLength s).busyIn = s.busyIn ∧ (takeLength s).xchgIn = s.xchgIn.tail ∧ (takeLength s).draws = s.draws + 1 ∧
    (takeLength s).agenda = s.agenda ∧ (takeLength s).resps = s.resps := by
  refine ⟨rfl, rfl, rfl, rfl, rfl, rfl, rfl, rfl, rfl, rfl, rfl, rfl, rfl, rfl, rfl, rfl, rfl, rfl, rfl, rfl, rfl, rfl, rfl, rfl, rfl, rfl, rfl, rfl, rfl, rfl, rfl, rfl⟩

/-- Every field after a byte of the reply is taken. -/
@[simp] theorem takeByte_fields (s : State) :
    (takeByte s).params = s.params ∧ (takeByte s).opword = s.opword ∧ (takeByte s).done = s.done ∧
    (takeByte s).fatal = s.fatal ∧ (takeByte s).result = s.result ∧ (takeByte s).anomaly = s.anomaly ∧
    (takeByte s).rdy = s.rdy ∧ (takeByte s).fcause = s.fcause ∧ (takeByte s).config = s.config ∧
    (takeByte s).drvstate = s.drvstate ∧ (takeByte s).ackinfo = s.ackinfo ∧ (takeByte s).freq = s.freq ∧
    (takeByte s).fcint = s.fcint ∧ (takeByte s).fcfrac = s.fcfrac ∧ (takeByte s).dreg0 = s.dreg0 ∧
    (takeByte s).dreg1 = s.dreg1 ∧ (takeByte s).mem = Memory.writeBuf s.mem .rxf s.i s.rxNext ∧ (takeByte s).st = s.st ∧
    (takeByte s).op = s.op ∧ (takeByte s).k = s.k ∧ (takeByte s).i = s.i + 1 ∧ (takeByte s).len = s.len ∧
    (takeByte s).cap = s.cap ∧ (takeByte s).lenByte = s.lenByte ∧ (takeByte s).d = s.d ∧ (takeByte s).csN = s.csN ∧
    (takeByte s).trace = s.trace ++ [.xfer 0xFF#8 s.rxNext] ∧ (takeByte s).busyIn = s.busyIn ∧
    (takeByte s).xchgIn = s.xchgIn.tail ∧ (takeByte s).draws = s.draws + 1 ∧ (takeByte s).agenda = s.agenda ∧
    (takeByte s).resps = s.resps := by
  refine ⟨rfl, rfl, rfl, rfl, rfl, rfl, rfl, rfl, rfl, rfl, rfl, rfl, rfl, rfl, rfl, rfl, rfl, rfl, rfl, rfl, rfl, rfl, rfl, rfl, rfl, rfl, rfl, rfl, rfl, rfl, rfl, rfl⟩

/-- Every field after a byte of the frame is shifted out. -/
@[simp] theorem shiftByte_fields (s : State) :
    (shiftByte s).params = s.params ∧ (shiftByte s).opword = s.opword ∧ (shiftByte s).done = s.done ∧
    (shiftByte s).fatal = s.fatal ∧ (shiftByte s).result = s.result ∧ (shiftByte s).anomaly = s.anomaly ∧
    (shiftByte s).rdy = s.rdy ∧ (shiftByte s).fcause = s.fcause ∧ (shiftByte s).config = s.config ∧
    (shiftByte s).drvstate = s.drvstate ∧ (shiftByte s).ackinfo = s.ackinfo ∧ (shiftByte s).freq = s.freq ∧
    (shiftByte s).fcint = s.fcint ∧ (shiftByte s).fcfrac = s.fcfrac ∧ (shiftByte s).dreg0 = s.dreg0 ∧
    (shiftByte s).dreg1 = s.dreg1 ∧ (shiftByte s).mem = s.mem ∧ (shiftByte s).st = s.st ∧ (shiftByte s).op = s.op ∧
    (shiftByte s).k = s.k ∧ (shiftByte s).i = s.i + 1 ∧ (shiftByte s).len = s.len ∧ (shiftByte s).cap = s.cap ∧
    (shiftByte s).lenByte = s.lenByte ∧ (shiftByte s).d = s.d ∧ (shiftByte s).csN = s.csN ∧
    (shiftByte s).trace = s.trace ++ [.xfer (s.txf s.i) s.rxNext] ∧ (shiftByte s).busyIn = s.busyIn ∧
    (shiftByte s).xchgIn = s.xchgIn.tail ∧ (shiftByte s).draws = s.draws + 1 ∧ (shiftByte s).agenda = s.agenda ∧
    (shiftByte s).resps = s.resps := by
  refine ⟨rfl, rfl, rfl, rfl, rfl, rfl, rfl, rfl, rfl, rfl, rfl, rfl, rfl, rfl, rfl, rfl, rfl, rfl, rfl, rfl, rfl, rfl, rfl, rfl, rfl, rfl, rfl, rfl, rfl, rfl, rfl, rfl⟩

/-- Every field after a sample at the wrong level. -/
@[simp] theorem missedSample_fields (s : State) :
    (missedSample s).params = s.params ∧ (missedSample s).opword = s.opword ∧ (missedSample s).done = s.done ∧
    (missedSample s).fatal = s.fatal ∧ (missedSample s).result = s.result ∧ (missedSample s).anomaly = s.anomaly ∧
    (missedSample s).rdy = s.rdy ∧ (missedSample s).fcause = s.fcause ∧ (missedSample s).config = s.config ∧
    (missedSample s).drvstate = s.drvstate ∧ (missedSample s).ackinfo = s.ackinfo ∧ (missedSample s).freq = s.freq ∧
    (missedSample s).fcint = s.fcint ∧ (missedSample s).fcfrac = s.fcfrac ∧ (missedSample s).dreg0 = s.dreg0 ∧
    (missedSample s).dreg1 = s.dreg1 ∧ (missedSample s).mem = s.mem ∧ (missedSample s).st = s.st ∧
    (missedSample s).op = s.op ∧ (missedSample s).k = s.k + 1 ∧ (missedSample s).i = s.i ∧ (missedSample s).len = s.len ∧
    (missedSample s).cap = s.cap ∧ (missedSample s).lenByte = s.lenByte ∧ (missedSample s).d = s.d ∧
    (missedSample s).csN = s.csN ∧ (missedSample s).trace = s.trace ++ [.sample s.busyNext] ++ [.tick] ∧
    (missedSample s).busyIn = s.busyIn.tail ∧ (missedSample s).xchgIn = s.xchgIn ∧ (missedSample s).draws = s.draws + 1 ∧
    (missedSample s).agenda = s.agenda ∧ (missedSample s).resps = s.resps := by
  refine ⟨rfl, rfl, rfl, rfl, rfl, rfl, rfl, rfl, rfl, rfl, rfl, rfl, rfl, rfl, rfl, rfl, rfl, rfl, rfl, rfl, rfl, rfl, rfl, rfl, rfl, rfl, rfl, rfl, rfl, rfl, rfl, rfl⟩

/-- Every field after a parse step accepts the length. -/
@[simp] theorem acceptReply_fields (s : State) :
    (acceptReply s).params = s.params ∧ (acceptReply s).opword = s.opword ∧ (acceptReply s).done = s.done ∧
    (acceptReply s).fatal = s.fatal ∧ (acceptReply s).result = s.result ∧ (acceptReply s).anomaly = s.anomaly ∧
    (acceptReply s).rdy = s.rdy ∧ (acceptReply s).fcause = s.fcause ∧ (acceptReply s).config = s.config ∧
    (acceptReply s).drvstate = ⟨true, s.rxf 1, s.rxf 2⟩ ∧
    (acceptReply s).ackinfo = ⟨BitVec.ofNat 5 ((s.rxf 0).toNat - 3), s.rxf 2, s.rxf 1, s.rxf 0⟩ ∧
    (acceptReply s).freq = s.freq ∧ (acceptReply s).fcint = s.fcint ∧ (acceptReply s).fcfrac = s.fcfrac ∧
    (acceptReply s).dreg0 = s.dreg0 ∧ (acceptReply s).dreg1 = s.dreg1 ∧
    (acceptReply s).mem = Memory.storeBytes s.mem .apay 0 (fun j => s.rxf (3 + j)) ((s.rxf 0).toNat - 3) ∧
    (acceptReply s).st = s.st ∧ (acceptReply s).op = s.op ∧ (acceptReply s).k = s.k ∧ (acceptReply s).i = s.i ∧
    (acceptReply s).len = s.len ∧ (acceptReply s).cap = s.cap ∧ (acceptReply s).lenByte = s.lenByte ∧
    (acceptReply s).d = s.d ∧ (acceptReply s).csN = s.csN ∧ (acceptReply s).trace = s.trace ∧
    (acceptReply s).busyIn = s.busyIn ∧ (acceptReply s).xchgIn = s.xchgIn ∧ (acceptReply s).draws = s.draws ∧
    (acceptReply s).agenda = s.agenda ∧ (acceptReply s).resps = s.resps := by
  refine ⟨rfl, rfl, rfl, rfl, rfl, rfl, rfl, rfl, rfl, rfl, rfl, rfl, rfl, rfl, rfl, rfl, rfl, rfl, rfl, rfl, rfl, rfl, rfl, rfl, rfl, rfl, rfl, rfl, rfl, rfl, rfl, rfl⟩

/-- R183: a parse step that accepts the length. -/
theorem parseStep_of_accepts {s : State} (h3 : 3 ≤ (s.rxf 0).toNat) (hcap : (s.rxf 0).toNat - 3 ≤ s.cap - 3) :
    parseStep s = finish (replyResult s) (flagAnomaly (acceptReply s)) := by
  rcases parseStep_cases s with ⟨rejected, _⟩ | ⟨t, accepted, e⟩
  · have := (parseAck_eq_none _ s).mp rejected
    omega
  · obtain ⟨_, _, rfl⟩ := parseAck_eq_some _ _ _ accepted
    rw [e]
    rfl

/-- The next states of one FSM step. -/
inductive FsmMove (s : State) : State → Prop where
  | rest (still : s.st = .idle ∨ s.st = .fault) : FsmMove s s
  | missed (wait : s.st.waiting = true) (wrong : s.busyNext ≠ s.st.awaits) (more : s.k + 1 < s.waitBound) :
      FsmMove s (missedSample s)
  | timeout (wait : s.st.waiting = true) (isOpen : s.st.phaseOpen = true) (wrong : s.busyNext ≠ s.st.awaits)
      (last : s.waitBound ≤ s.k + 1) : FsmMove s (abortPhase .timeout (missedSample s))
  | selected (here : s.st = .sWaitIdle) (level : s.busyNext = true) :
      FsmMove s (enterWait .sWaitAccept (csAssert (sampleBusy s)))
  | accepted (here : s.st = .sWaitAccept) (level : s.busyNext = false) : FsmMove s (goto .sXfer { sampleBusy s with i := 0 })
  | busError (tx : Byte) (here : s.st = .sXfer ∧ tx = s.txf s.i ∨ s.st = .rXferLen ∧ tx = 0xFF#8 ∨ s.st = .rXfer ∧ tx = 0xFF#8)
      (err : s.errNext = true) : FsmMove s (abortPhase .buserr (spiXchg tx s))
  | shifted (here : s.st = .sXfer) (fine : s.errNext = false) (more : s.i + 1 ≠ s.len) : FsmMove s (shiftByte s)
  | shiftedLast (here : s.st = .sXfer) (fine : s.errNext = false) (last : s.i + 1 = s.len) :
      FsmMove s (enterWait .sWaitDone (shiftByte s))
  | sent (here : s.st = .sWaitDone) (level : s.busyNext = true) (noReply : (s.isXact && !s.opNa) = false) :
      FsmMove s (finish .ok (csRelease (sampleBusy s)))
  | turned (here : s.st = .sWaitDone) (level : s.busyNext = true) (reply : (s.isXact && !s.opNa) = true) :
      FsmMove s (openReceive (csRelease (sampleBusy s)))
  | ready (here : s.st = .rWaitReady) (level : s.busyNext = false) : FsmMove s (goto .rXferLen (csAssert (sampleBusy s)))
  | badLength (here : s.st = .rXferLen) (fine : s.errNext = false) (bad : s.rxNext.toNat = 0 ∨ s.cap < s.rxNext.toNat) :
      FsmMove s (abortPhase .acklen (takeLength s))
  | oneByte (here : s.st = .rXferLen) (fine : s.errNext = false) (len : s.rxNext.toNat = 1) (fits : 1 ≤ s.cap) :
      FsmMove s (enterWait .rWaitDone (takeLength s))
  | moreBytes (here : s.st = .rXferLen) (fine : s.errNext = false) (len : 2 ≤ s.rxNext.toNat) (fits : s.rxNext.toNat ≤ s.cap) :
      FsmMove s (goto .rXfer { takeLength s with i := 1 })
  | stored (here : s.st = .rXfer) (fine : s.errNext = false) (more : s.i + 1 ≠ s.lenByte.toNat) : FsmMove s (takeByte s)
  | storedLast (here : s.st = .rXfer) (fine : s.errNext = false) (last : s.i + 1 = s.lenByte.toNat) :
      FsmMove s (enterWait .rWaitDone (takeByte s))
  | received (here : s.st = .rWaitDone) (level : s.busyNext = true) (noParse : s.parsesAck = false) :
      FsmMove s (finish .ok (csRelease (sampleBusy s)))
  | rejected (here : s.st = .rWaitDone) (level : s.busyNext = true) (parses : s.parsesAck = true)
      (bad : (s.rxf 0).toNat < 3 ∨ s.cap - 3 < (s.rxf 0).toNat - 3) :
      FsmMove s (finish .acklen (csRelease (sampleBusy s)))
  | parsed (here : s.st = .rWaitDone) (level : s.busyNext = true) (parses : s.parsesAck = true)
      (long : 3 ≤ (s.rxf 0).toNat) (fits : (s.rxf 0).toNat - 3 ≤ s.cap - 3) :
      FsmMove s (finish (replyResult s) (flagAnomaly (acceptReply (csRelease (sampleBusy s)))))
  | waited (here : s.st = .wWaitHigh) (level : s.busyNext = true) : FsmMove s (finish .ok (sampleBusy s))
  | gaveUp (here : s.st = .wWaitHigh) (level : s.busyNext = false) (last : s.waitBound ≤ s.k + 1) :
      FsmMove s (finish .timeout (missedSample s))
  | ticked (here : s.st = .dly) (more : s.d - 1 ≠ 0) : FsmMove s (tick { s with d := s.d - 1 })
  | tickedLast (here : s.st = .dly) (last : s.d - 1 = 0) : FsmMove s (finish .ok (tick { s with d := s.d - 1 }))
  | sampled (here : s.st = .smp) : FsmMove s (finish .ok (setRdy (!s.busyNext) (sampleBusy s)))

/-- R141 to R143: a wait of a transport phase that misses its last sample releases chip-select. -/
theorem fsmMove_of_pollStep {s : State} {target : Bool} {n : Nat} {onOK : State → State} (wait : s.st.waiting = true)
    (isOpen : s.st.phaseOpen = true) (level : s.st.awaits = target) (bound : s.waitBound = n)
    (ok : s.busyNext = target → FsmMove s (onOK (sampleBusy s))) :
    FsmMove s (pollStep target n onOK (abortPhase .timeout) s) := by
  subst level bound
  rcases pollStep_cases s.st.awaits s.waitBound onOK (abortPhase .timeout) s with ⟨level, e⟩ | ⟨wrong, more, e⟩ | ⟨wrong, last, e⟩ <;>
    rw [e]
  · exact ok level
  · exact .missed wait wrong more
  · exact .timeout wait isOpen wrong last

theorem fsmMove_sXfer {s : State} (here : s.st = .sXfer) : FsmMove s (stepSXfer s) := by
  unfold stepSXfer
  dsimp only
  split_ifs with err last
  · exact .busError _ (by simp [here]) err
  · exact .shiftedLast here (by simpa using err) last
  · exact .shifted here (by simpa using err) last

theorem fsmMove_rXferLen {s : State} (here : s.st = .rXferLen) : FsmMove s (stepRXferLen s) := by
  unfold stepRXferLen
  dsimp only
  split_ifs with err bad one
  · exact .busError _ (by simp [here]) err
  · exact .badLength here (by simpa using err) bad
  · exact .oneByte here (by simpa using err) one (by omega)
  · exact .moreBytes here (by simpa using err) (by omega) (by omega)

theorem fsmMove_rXfer {s : State} (here : s.st = .rXfer) : FsmMove s (stepRXfer s) := by
  unfold stepRXfer
  dsimp only
  split_ifs with err last
  · exact .busError _ (by simp [here]) err
  · exact .storedLast here (by simpa using err) last
  · exact .stored here (by simpa using err) last

/-- R183: the end of the receive phase of each operation. -/
theorem fsmMove_recvDone {s : State} (here : s.st = .rWaitDone) (level : s.busyNext = true) :
    FsmMove s (recvDone (csRelease (sampleBusy s))) := by
  by_cases parses : s.parsesAck = true
  · have isParse : recvDone (csRelease (sampleBusy s)) = parseStep (csRelease (sampleBusy s)) := if_pos parses
    rw [isParse]
    by_cases bad : (s.rxf 0).toNat < 3 ∨ s.cap - 3 < (s.rxf 0).toNat - 3
    · rw [parseStep_of_rejected (s := csRelease (sampleBusy s)) ((parseAck_eq_none _ _).mpr bad)]
      exact .rejected here level parses bad
    · obtain ⟨long, fits⟩ := not_or.mp bad
      rw [parseStep_of_accepts (s := csRelease (sampleBusy s)) (Nat.not_lt.mp long) (Nat.not_lt.mp fits)]
      exact .parsed here level parses (Nat.not_lt.mp long) (Nat.not_lt.mp fits)
  · have noParse : recvDone (csRelease (sampleBusy s)) = finish .ok (csRelease (sampleBusy s)) := if_neg parses
    rw [noParse]
    exact .received here level (by simpa using parses)

/-- R140: every FSM step has one of these next states. -/
theorem fsmStep_move (s : State) : FsmMove s (fsmStep s) := by
  cases here : s.st with
  | idle => rw [fsmStep_idle here]; exact .rest (.inl here)
  | fault => rw [fsmStep_fault here]; exact .rest (.inr here)
  | sXfer => rw [fsmStep_sXfer here]; exact fsmMove_sXfer here
  | rXferLen => rw [fsmStep_rXferLen here]; exact fsmMove_rXferLen here
  | rXfer => rw [fsmStep_rXfer here]; exact fsmMove_rXfer here
  | smp => rw [fsmStep_smp here]; exact .sampled here
  | dly =>
    rw [fsmStep_dly here]
    by_cases last : s.d - 1 = 0
    · rw [stepDly, if_pos last]; exact .tickedLast here last
    · rw [stepDly, if_neg last]; exact .ticked here last
  | sWaitIdle =>
    rw [fsmStep_sWaitIdle here]
    exact fsmMove_of_pollStep (by rw [here]; rfl) (by rw [here]; rfl) (by rw [here]; rfl) (by simp [State.waitBound, here])
      fun level => .selected here level
  | sWaitAccept =>
    rw [fsmStep_sWaitAccept here]
    exact fsmMove_of_pollStep (by rw [here]; rfl) (by rw [here]; rfl) (by rw [here]; rfl) (by simp [State.waitBound, here])
      fun level => .accepted here level
  | sWaitDone =>
    rw [fsmStep_sWaitDone here]
    refine fsmMove_of_pollStep (by rw [here]; rfl) (by rw [here]; rfl) (by rw [here]; rfl) (by simp [State.waitBound, here])
      fun level => ?_
    by_cases reply : (s.isXact && !s.opNa) = true
    · have turns : sendDone (csRelease (sampleBusy s)) = openReceive (csRelease (sampleBusy s)) := if_pos reply
      rw [turns]; exact .turned here level reply
    · have ends : sendDone (csRelease (sampleBusy s)) = finish .ok (csRelease (sampleBusy s)) := if_neg reply
      rw [ends]; exact .sent here level (Bool.not_eq_true _ ▸ reply)
  | rWaitReady =>
    rw [fsmStep_rWaitReady here]
    exact fsmMove_of_pollStep (by rw [here]; rfl) (by rw [here]; rfl) (by rw [here]; rfl) (by simp [State.waitBound, here])
      fun level => .ready here level
  | rWaitDone =>
    rw [fsmStep_rWaitDone here]
    exact fsmMove_of_pollStep (by rw [here]; rfl) (by rw [here]; rfl) (by rw [here]; rfl) (by simp [State.waitBound, here])
      fun level => fsmMove_recvDone here level
  | wWaitHigh =>
    have level : s.st.awaits = true := by rw [here]; rfl
    have wait : s.st.waiting = true := by rw [here]; rfl
    have bound : s.waitBound = pollBound s.params s.opTc := by simp [State.waitBound, here]
    rw [fsmStep_wWaitHigh here, stepWWaitHigh, ← bound]
    rcases pollStep_cases true s.waitBound (finish .ok) (finish .timeout) s with ⟨high, e⟩ | ⟨low, more, e⟩ | ⟨low, last, e⟩ <;> rw [e]
    · exact .waited here high
    · exact .missed wait (level ▸ low) more
    · exact .gaveUp here (by simpa using low) last

/-! ### The step -/

/-- The host offset of a register (10_state.md R30). -/
def HostReg.offset : HostReg → Nat
  | .opword => 0x00
  | .status => 0x04
  | .config => 0x08
  | .drvstate => 0x0C
  | .ackinfo => 0x10
  | .freq => 0x14
  | .fcint => 0x18
  | .fcfrac => 0x1C
  | .dreg0 => 0x20
  | .dreg1 => 0x24
  | .buf b w => b.base + 4 * w

/-- The word of a buffer that starts inside it (10_state.md R30). -/
def HostReg.inMap : HostReg → Prop
  | .buf b w => 4 * w < b.size
  | .opword | .status | .config | .drvstate | .ackinfo | .freq | .fcint | .fcfrac | .dreg0 | .dreg1 => True

/-- R30: one line of the register map. -/
theorem mapped_of_line {a : Nat} {p : Prop} {_ : Decidable p} {x r : HostReg} {o : Option HostReg}
    (line : p → a = x.offset ∧ x.inMap) (below : o = some r → a = r.offset ∧ r.inMap) (h : (if p then some x else o) = some r) :
    a = r.offset ∧ r.inMap := by
  by_cases hp : p
  · rw [if_pos hp] at h; cases h; exact line hp
  · rw [if_neg hp] at h; exact below h

/-- R30: an offset that falls on a register is the register's own. -/
theorem mapped_of_hostReg {addr : BitVec 8} {r : HostReg} (h : hostReg addr = some r) : addr.toNat = r.offset ∧ r.inMap := by
  unfold hostReg at h
  generalize addr.toNat = a at h ⊢
  dsimp only at h
  by_cases aligned : a % 4 = 0
  · rw [if_neg (not_not_intro aligned)] at h
    revert h
    iterate 10
      refine mapped_of_line ?line ?_
      case line => exact fun h => ⟨h, trivial⟩
    iterate 4
      refine mapped_of_line ?line ?_
      case line => intro h; simp only [HostReg.offset, HostReg.inMap, Buf.base, Buf.size]; omega
    simp
  · rw [if_pos aligned] at h
    cases h

/-- R30: two offsets that fall on one register are one offset. -/
theorem hostReg_inj {a a' : BitVec 8} {r : HostReg} (h : hostReg a = some r) (h' : hostReg a' = some r) : a = a' :=
  BitVec.eq_of_toNat_eq ((mapped_of_hostReg h).1.trans (mapped_of_hostReg h').1.symm)

/-- R30: the offset of a register. -/
theorem eq_offset_of_hostReg {addr : BitVec 8} {r : HostReg} (h : hostReg addr = some r) : addr = BitVec.ofNat 8 r.offset := by
  rw [← (mapped_of_hostReg h).1, BitVec.ofNat_toNat, BitVec.setWidth_eq]

/-- R30: OPWORD is at offset 0 only. -/
theorem eq_of_hostReg_opword {addr : BitVec 8} (h : hostReg addr = some .opword) : addr = 0x00#8 :=
  eq_offset_of_hostReg h

/-- The state in which an access runs and answers: its entry has left the agenda (log 4). -/
def answered (rest : List Move) (rs : List HostResp) (s : State) : State := { s with agenda := rest, resps := s.resps ++ rs }

/-- Every field after an access is answered. -/
@[simp] theorem answered_fields (rest : List Move) (rs : List HostResp) (s : State) :
    (answered rest rs s).params = s.params ∧ (answered rest rs s).opword = s.opword ∧ (answered rest rs s).done = s.done ∧
    (answered rest rs s).fatal = s.fatal ∧ (answered rest rs s).result = s.result ∧
    (answered rest rs s).anomaly = s.anomaly ∧ (answered rest rs s).rdy = s.rdy ∧ (answered rest rs s).fcause = s.fcause ∧
    (answered rest rs s).config = s.config ∧ (answered rest rs s).drvstate = s.drvstate ∧
    (answered rest rs s).ackinfo = s.ackinfo ∧ (answered rest rs s).freq = s.freq ∧ (answered rest rs s).fcint = s.fcint ∧
    (answered rest rs s).fcfrac = s.fcfrac ∧ (answered rest rs s).dreg0 = s.dreg0 ∧ (answered rest rs s).dreg1 = s.dreg1 ∧
    (answered rest rs s).mem = s.mem ∧ (answered rest rs s).st = s.st ∧ (answered rest rs s).op = s.op ∧
    (answered rest rs s).k = s.k ∧ (answered rest rs s).i = s.i ∧ (answered rest rs s).len = s.len ∧
    (answered rest rs s).cap = s.cap ∧ (answered rest rs s).lenByte = s.lenByte ∧ (answered rest rs s).d = s.d ∧
    (answered rest rs s).csN = s.csN ∧ (answered rest rs s).trace = s.trace ∧ (answered rest rs s).busyIn = s.busyIn ∧
    (answered rest rs s).xchgIn = s.xchgIn ∧ (answered rest rs s).draws = s.draws ∧ (answered rest rs s).agenda = rest ∧
    (answered rest rs s).resps = s.resps ++ rs := by
  refine ⟨rfl, rfl, rfl, rfl, rfl, rfl, rfl, rfl, rfl, rfl, rfl, rfl, rfl, rfl, rfl, rfl, rfl, rfl, rfl, rfl, rfl, rfl, rfl, rfl, rfl, rfl, rfl, rfl, rfl, rfl, rfl, rfl⟩

/-- The next states of a step of the machine. -/
inductive Stepped (s : State) : State → Prop where
  | fsm (rest : List Move) (head : s.agenda = .fsm :: rest ∨ s.agenda = [] ∧ rest = [] ∧ s.st ≠ .fault) :
      Stepped s (fsmStep { s with agenda := rest })
  | answer (rest : List Move) (rs : List HostResp) (head : ∀ ms, s.agenda ≠ .rst :: ms) : Stepped s (answered rest rs s)
  | busyWrite (addr : BitVec 8) (v : Word) (rest : List Move) (head : s.agenda = .host (.write addr v) :: rest)
      (fatal : s.fatal = false) (busy : s.busy = true) : Stepped s (raiseFatal .busy (answered rest [.write true] s))
  | illegal (v : Word) (rest : List Move) (head : s.agenda = .host (.write 0x00#8 v) :: rest) (fatal : s.fatal = false)
      (busy : s.busy = false) : Stepped s (raiseFatal .illegalOp (acceptWord v (answered rest [.write true] s)))
  | launch (v : Word) (i : Instr) (rest : List Move) (t : State) (head : s.agenda = .host (.write 0x00#8 v) :: rest)
      (fatal : s.fatal = false) (busy : s.busy = false) (legal : decode v = .ok i)
      (launched : Launched (latchWord v (answered rest [.write true] s)) i t) : Stepped s t
  | write (addr : BitVec 8) (r : HostReg) (v : Word) (rest : List Move) (head : s.agenda = .host (.write addr v) :: rest)
      (fatal : s.fatal = false) (busy : s.busy = false) : Stepped s (writeReg r v (answered rest [.write true] s))
  | reset (rest : List Move) (head : s.agenda = .rst :: rest) : Stepped s (blockReset { s with agenda := rest })

/-- R75: the next states of a host write. -/
theorem stepped_of_hostWrite {addr : BitVec 8} {v : Word} {rest : List Move} {s t : State}
    (head : s.agenda = .host (.write addr v) :: rest) (h : hostWrite addr v { s with agenda := rest } = .next t) : Stepped s t := by
  have noReset : ∀ ms, s.agenda ≠ .rst :: ms := by simp [head]
  rcases hostWrite_cases addr v { s with agenda := rest } with
    ⟨_, e⟩ | ⟨r, mapped, ⟨_, e⟩ | ⟨_, _, e⟩ | ⟨_, fatal, busy, e⟩ | ⟨isOpword, fatal, busy, e⟩ | ⟨_, _, fatal, busy, e⟩⟩ <;> rw [e] at h
  · cases h; exact .answer rest [.write false] noReset
  · cases h; exact .answer rest [.write false] noReset
  · cases h; exact .answer rest [.write true] noReset
  · cases h; exact .busyWrite addr v rest head fatal busy
  · obtain rfl := eq_of_hostReg_opword (isOpword ▸ mapped)
    cases hd : decode v with
    | error err =>
      rw [launch_illegal _ hd] at h
      cases h
      exact .illegal v rest head fatal busy
    | ok i =>
      rw [launch_legal _ hd] at h
      exact .launch v i rest t head fatal busy hd (launched_of_exec h)
  · cases h; exact .write addr r v rest head fatal busy

/-- R80: the next states of a step, by the head of the agenda. -/
theorem stepped_of_step {s t : State} (h : step s = .next t) : Stepped s t := by
  rcases step_cases s with ⟨_, _, e⟩ | ⟨empty, running, e⟩ | ⟨rest, head, e⟩ | ⟨addr, rest, head, e⟩ | ⟨addr, v, rest, head, e⟩ |
    ⟨rest, head, e⟩ | ⟨rest, head, e⟩ <;> rw [e] at h
  · cases h
  · cases h
    have same : s = { s with agenda := [] } := by rw [← empty]
    rw [same]
    exact same ▸ .fsm [] (.inr ⟨empty, rfl, running⟩)
  · cases h; exact .fsm rest (.inl head)
  · cases h; exact .answer rest _ (by simp [head])
  · exact stepped_of_hostWrite head h
  · cases h
    unfold waitDoneTurn
    dsimp only
    split_ifs with busy
    · exact .answer (.fsm :: .waitDone :: rest) _ (by simp [head])
    · exact .answer rest _ (by simp [head])
  · cases h; exact .reset rest head

end Sys2Proof.Machine

/-! # What every step keeps -/
namespace Sys2Proof.Machine

/-! ### The bounds of the FSM's counters -/

/-- The level of CS_N in each FSM state (41_transport.md R142): true is inactive. -/
def FsmState.csIdle : FsmState → Bool
  | .idle | .sWaitIdle | .rWaitReady | .wWaitHigh | .dly | .smp | .fault => true
  | .sWaitAccept | .sXfer | .sWaitDone | .rXferLen | .rXfer | .rWaitDone => false

/-- What each FSM state promises of the operation in flight and of the counters (10_state.md R45, R47; 41_transport.md R144, R146). -/
def State.InBounds (s : State) : Prop :=
  match s.st with
  | .idle | .fault => True
  | .sWaitIdle | .sWaitAccept | .sWaitDone => s.sendOp = true ∧ s.lenOk = true ∧ s.k < s.nNotx
  | .sXfer => s.sendOp = true ∧ s.lenOk = true ∧ s.i < s.len
  | .rWaitReady => s.recvOp = true ∧ s.k < pollBound s.params s.opTc
  | .rXferLen => s.recvOp = true
  | .rXfer => s.recvOp = true ∧ 1 ≤ s.i ∧ s.i < s.lenByte.toNat ∧ s.lenByte.toNat ≤ s.cap ∧ s.rxf 0 = s.lenByte
  | .rWaitDone =>
    s.recvOp = true ∧ 1 ≤ s.lenByte.toNat ∧ s.lenByte.toNat ≤ s.cap ∧ s.rxf 0 = s.lenByte ∧ s.k < s.nNotx
  | .wWaitHigh => s.opCode = 0x5#4 ∧ s.k < pollBound s.params s.opTc
  | .dly => s.opCode = 0x7#4 ∧ 1 ≤ s.d
  | .smp => s.opCode = 0x6#4

/-- The state promises of the control invariant are those of chip-select and those of the counters. -/
theorem stOk_iff (s : State) : s.stOk = true ↔ s.csN = s.st.csIdle ∧ s.InBounds := by
  unfold State.stOk State.InBounds
  cases s.st <;> simp [FsmState.csIdle, and_assoc]

/-- A byte of a buffer just written. -/
theorem Memory.readBuf_writeBuf_same (m : Memory) {b : Buf} {j : Nat} (v : Byte) (h : j < b.size) :
    Memory.readBuf (Memory.writeBuf m b j v) b j = v := by
  simp [Memory.readBuf_writeBuf, h]

/-- The other bytes of a buffer stay. -/
theorem Memory.readBuf_writeBuf_other (m : Memory) {b b' : Buf} {j j' : Nat} (v : Byte) (h : j' ≠ j) :
    Memory.readBuf (Memory.writeBuf m b j v) b' j' = Memory.readBuf m b' j' := by
  simp [Memory.readBuf_writeBuf, h]

/-- R180, R182: an XACT that turns to its receive phase already has its capacity. -/
theorem recvOp_of_turned {s : State} (h : s.sendOp = true) (reply : (s.isXact && !s.opNa) = true) : s.recvOp = true := by
  simp_all [State.sendOp, State.recvOp, State.isXact]

/-- R94: whether a send phase may run depends on the latched word and S.cap only. -/
theorem sendOp_frame {s t : State} (h : s.sendOp = true) (op : t.op = s.op) (cap : t.cap = s.cap) : t.sendOp = true := by
  simpa [State.sendOp, State.capFrom, State.opCode, State.opNa, op, cap] using h

/-- R94: whether a receive phase may run depends on the latched word and S.cap only. -/
theorem recvOp_frame {s t : State} (h : s.recvOp = true) (op : t.op = s.op) (cap : t.cap = s.cap) : t.recvOp = true := by
  simpa [State.recvOp, State.capFrom, State.opCode, State.opNa, op, cap] using h

/-- R45: S.len in bounds is a fact of S.len only. -/
theorem lenOk_frame {s t : State} (h : s.lenOk = true) (len : t.len = s.len) : t.lenOk = true := by
  simpa [State.lenOk, len] using h

/-- R47: a missed sample before the last one leaves the counter below its bound. -/
theorem inBounds_missedSample {s : State} (h : s.InBounds) (wait : s.st.waiting = true) (more : s.k + 1 < s.waitBound) :
    (missedSample s).InBounds := by
  have send : (missedSample s).sendOp = s.sendOp := rfl
  have recv : (missedSample s).recvOp = s.recvOp := rfl
  have len : (missedSample s).lenOk = s.lenOk := rfl
  unfold State.waitBound at more
  unfold State.InBounds at h ⊢
  simp only [State.rxf, State.nNotx, State.opTc, State.opCode, missedSample_fields] at h more ⊢
  cases here : s.st <;> simp_all [FsmState.waiting]

/-- R45, R47: every FSM step keeps the bounds. -/
theorem FsmMove.inBounds {s t : State} (m : FsmMove s t) (h : s.InBounds) : t.InBounds := by
  cases m with
  | rest _ => exact h
  | missed wait _ more => exact inBounds_missedSample h wait more
  | selected here _ | shiftedLast here _ _ =>
    rw [State.InBounds, here] at h
    obtain ⟨op, len, _⟩ := h
    exact ⟨sendOp_frame op (by simp) (by simp), lenOk_frame len (by simp), pollBound_pos ..⟩
  | accepted here _ =>
    rw [State.InBounds, here] at h
    obtain ⟨op, len, _⟩ := h
    have pos : 1 ≤ s.len := by simp_all [State.lenOk]
    exact ⟨sendOp_frame op (by simp) (by simp), lenOk_frame len (by simp), pos⟩
  | shifted here _ more =>
    rw [State.InBounds, here] at h
    obtain ⟨op, len, i⟩ := h
    have next : s.i + 1 < s.len := by omega
    simp only [State.InBounds, shiftByte_fields, here]
    exact ⟨sendOp_frame op (by simp) (by simp), lenOk_frame len (by simp), next⟩
  | turned here _ reply =>
    rw [State.InBounds, here] at h
    obtain ⟨op, _, _⟩ := h
    exact ⟨recvOp_frame (recvOp_of_turned op reply) (by simp) (by simp), pollBound_pos ..⟩
  | ready here _ =>
    rw [State.InBounds, here] at h
    obtain ⟨op, _⟩ := h
    exact recvOp_frame op (by simp) (by simp)
  | oneByte here _ len fits =>
    rw [State.InBounds, here] at h
    have op : s.recvOp = true := h
    have stored := Memory.readBuf_writeBuf_same s.mem (b := .rxf) (j := 0) s.rxNext (by decide)
    simp only [State.InBounds, State.rxf, enterWait_fields, takeLength_fields]
    exact ⟨recvOp_frame op (by simp) (by simp), len.ge, len.trans_le fits, stored, pollBound_pos ..⟩
  | moreBytes here _ len fits =>
    rw [State.InBounds, here] at h
    have op : s.recvOp = true := h
    have stored := Memory.readBuf_writeBuf_same s.mem (b := .rxf) (j := 0) s.rxNext (by decide)
    simp only [State.InBounds, State.rxf, goto_fields, takeLength_fields]
    exact ⟨recvOp_frame op (by simp) (by simp), le_rfl, len, fits, stored⟩
  | stored here _ more =>
    rw [State.InBounds, here] at h
    obtain ⟨op, pos, i, cap, len⟩ := h
    have next : s.i + 1 < s.lenByte.toNat := by omega
    have kept := Memory.readBuf_writeBuf_other s.mem (b := .rxf) (b' := .rxf) s.rxNext (show 0 ≠ s.i by omega)
    simp only [State.InBounds, State.rxf, takeByte_fields, here]
    exact ⟨recvOp_frame op (by simp) (by simp), Nat.le_add_left .., next, cap, kept.trans len⟩
  | storedLast here _ last =>
    rw [State.InBounds, here] at h
    obtain ⟨op, pos, i, cap, len⟩ := h
    have some : 1 ≤ s.lenByte.toNat := by omega
    have kept := Memory.readBuf_writeBuf_other s.mem (b := .rxf) (b' := .rxf) s.rxNext (show 0 ≠ s.i by omega)
    simp only [State.InBounds, State.rxf, enterWait_fields, takeByte_fields]
    exact ⟨recvOp_frame op (by simp) (by simp), some, cap, kept.trans len, pollBound_pos ..⟩
  | ticked here more =>
    rw [State.InBounds, here] at h
    obtain ⟨op, _⟩ := h
    simp only [State.InBounds, tick_fields, here]
    exact ⟨op, Nat.one_le_iff_ne_zero.mpr more⟩
  | timeout | busError | sent | badLength | received | rejected | parsed | waited | gaveUp | tickedLast | sampled =>
    simp [State.InBounds]

/-- R182: the receive capacity of XACT is a legal one. -/
theorem xactCap_range (m : CapMode) {apl : Nat} (h : apl ≤ 23) : 3 ≤ xactCap m apl ∧ xactCap m apl ≤ 26 := by
  cases m <;> simp only [xactCap, Config.ackFrameMax, Config.ackHdr] <;> omega

/-- R94: every launch part that opens a phase or a wait enters it in bounds: the checks have passed, and the latched word holds the
operation. -/
theorem Launched.inBounds {s t : State} {i : Instr} (m : Launched s i t) (held : i.HeldBy s.op) : t.InBounds := by
  cases m with
  | fatal c _ => simp [State.InBounds]
  | pack _ | parseRejected | parseAccepted _ _ | delayNone _ | codec _ => simp [State.InBounds]
  | send pos short =>
    obtain ⟨op, _⟩ := held
    simp only [State.InBounds, openSend_fields]
    exact ⟨by simp [State.sendOp, State.opCode, op], by simp [State.lenOk, pos, short], pollBound_pos ..⟩
  | sendnb short =>
    obtain ⟨op, _⟩ := held
    simp only [State.InBounds, openSend_fields]
    exact ⟨by simp [State.sendOp, State.opCode, op], by simp [State.lenOk, short], pollBound_pos ..⟩
  | xactNoAck short =>
    obtain ⟨op, _, _, _, na, _⟩ := held
    simp only [State.InBounds, openSend_fields]
    exact ⟨by simp [State.sendOp, State.opCode, State.opNa, op, ← na], by simp [State.lenOk, short], pollBound_pos ..⟩
  | xactAck short fits =>
    obtain ⟨op, _, _, _, na, _⟩ := held
    have cap := xactCap_range s.config.capMode fits
    simp only [State.InBounds, openSend_fields]
    exact ⟨by simp [State.sendOp, State.capFrom, State.opCode, op, cap], by simp [State.lenOk, short], pollBound_pos ..⟩
  | recv pos fits =>
    obtain ⟨op, _⟩ := held
    simp only [State.InBounds, openReceive_fields]
    exact ⟨by simp [State.recvOp, State.capFrom, State.opCode, op, pos, fits], pollBound_pos ..⟩
  | readack pos fits =>
    obtain ⟨op, _⟩ := held
    simp only [State.InBounds, openReceive_fields]
    exact ⟨by simp [State.recvOp, State.capFrom, State.opCode, op, pos, fits], pollBound_pos ..⟩
  | waitrdy =>
    obtain ⟨op, _⟩ := held
    exact ⟨op, pollBound_pos ..⟩
  | isrdy => exact held
  | delay nonzero =>
    obtain ⟨op, _⟩ := held
    exact ⟨op, Nat.one_le_iff_ne_zero.mpr nonzero⟩

/-! ### Chip-select -/

/-- R142: every FSM step leaves chip-select as the state it enters says. -/
theorem FsmMove.csN {s t : State} (m : FsmMove s t) (h : s.csN = s.st.csIdle) : t.csN = t.st.csIdle := by
  cases m <;> simp_all [FsmState.csIdle]

/-- R233: after a Fatal chip-select is inactive, for an open phase has released it. -/
theorem raiseFatal_csN (c : FatalCause) {s : State} (h : s.csN = s.st.csIdle) : (raiseFatal c s).csN = true := by
  have covered : (s.st.phaseOpen || s.st.csIdle) = true := by cases s.st <;> rfl
  simpa [h] using covered

/-- R144, R146: no launch part touches chip-select. -/
theorem Launched.csN {s t : State} {i : Instr} (m : Launched s i t) (h : s.csN = true) : t.csN = t.st.csIdle := by
  cases m with
  | parseAccepted _ accepted =>
    obtain ⟨_, _, rfl⟩ := parseAck_eq_some _ _ _ accepted
    simpa [FsmState.csIdle] using h
  | _ => simp_all [FsmState.csIdle]

/-! ### The flags -/

/-- The agreement of the flags, one clause each. -/
theorem flagsOk_iff (s : State) :
    s.flagsOk = true ↔
      s.fatal = decide (s.st = .fault) ∧ (s.result = .fatal ↔ s.fatal = true) ∧ (s.fcause = .none ↔ s.fatal = false) ∧
        (s.fatal = true → s.done = true) ∧
        (s.busy = true → s.done = false ∧ s.result = .ok ∧ s.anomaly = false ∧ s.opword = s.op) := by
  unfold State.flagsOk
  cases s.fatal <;> cases s.busy <;> simp [and_assoc]

/-- R34: a step of a busy block either goes on with the launch's flags or ends the operation with a result other than FATAL. -/
theorem FsmMove.ends {s t : State} (m : FsmMove s t) (busy : s.st.busy = true) :
    (t.st.busy = true ∧ t.done = s.done ∧ t.result = s.result ∧ t.anomaly = s.anomaly) ∨
      (t.st = .idle ∧ t.done = true ∧ t.result ≠ .fatal) := by
  cases m with
  | rest still => rcases still with still | still <;> simp [still, FsmState.busy] at busy
  | missed | shifted | stored | ticked => left; simpa using busy
  | selected | accepted | shiftedLast | turned | ready | oneByte | moreBytes | storedLast => left; simp [FsmState.busy]
  | parsed =>
    have other : replyResult s ≠ .fatal := by unfold replyResult; split <;> decide
    right; simpa using other
  | timeout | busError | sent | badLength | received | rejected | waited | gaveUp | tickedLast | sampled => right; simp

/-- R34, R48: the FSM keeps the agreement of the flags. -/
theorem fsmStep_flagsOk {s : State} (h : s.flagsOk = true) : (fsmStep s).flagsOk = true := by
  have fixed : SameFixed s (fsmStep s) := fsmStep_fixed s
  obtain ⟨_, opword, op, fatal, fcause, _⟩ := fixed
  by_cases busy : s.st.busy = true
  case neg =>
    have still : fsmStep s = s := by
      cases here : s.st <;> simp_all [FsmState.busy, fsmStep]
    rwa [still]
  case pos =>
    rw [flagsOk_iff] at h ⊢
    obtain ⟨hfault, hresult, hcause, hdone, hbusy⟩ := h
    have notFault : s.st ≠ .fault := by intro e; simp [e, FsmState.busy] at busy
    have notFatal : s.fatal = false := by simp [hfault, notFault]
    obtain ⟨done, result, anomaly, latched⟩ := hbusy busy
    rcases (fsmStep_move s).ends busy with ⟨busy', done', result', anomaly'⟩ | ⟨idle, done', result'⟩
    · have notFault' : (fsmStep s).st ≠ .fault := by intro e; simp [e, FsmState.busy] at busy'
      simp_all
    · simp_all [State.busy, FsmState.busy]

/-- R233: a Fatal with a named cause sets FATAL, FCAUSE, RESULT and DONE together. -/
theorem raiseFatal_flagsOk {c : FatalCause} (named : c ≠ .none) (s : State) : (raiseFatal c s).flagsOk = true := by
  rw [flagsOk_iff]
  simp [named, State.busy, FsmState.busy]

/-- R48: after a launch the flags are clear while the block is BUSY, and agree when it has ended or failed. -/
theorem Launched.flagsOk {s t : State} {i : Instr} (m : Launched s i t) (notFatal : s.fatal = false) (noCause : s.fcause = .none)
    (done : s.done = false) (result : s.result = .ok) (anomaly : s.anomaly = false) (latched : s.opword = s.op) :
    t.flagsOk = true := by
  cases m with
  | fatal c named => exact raiseFatal_flagsOk named s
  | parseAccepted _ accepted =>
    obtain ⟨_, _, rfl⟩ := parseAck_eq_some _ _ _ accepted
    simp [flagsOk_iff, State.busy, FsmState.busy, notFatal, noCause]
  | _ => simp_all [flagsOk_iff, State.busy, FsmState.busy]

/-! ### ACKINFO -/

/-- R38: a header of 3 to 26 bytes. -/
theorem ackOk_of_header {s : State} {len : Byte} (long : 3 ≤ len.toNat) (fits : len.toNat ≤ 26) {aerr astate : Byte}
    (h : s.ackinfo = ⟨BitVec.ofNat 5 (len.toNat - 3), astate, aerr, len⟩) : s.ackOk = true := by
  have field : (len.toNat - 3) % 2 ^ 5 + 3 = len.toNat := by omega
  simp only [State.ackOk, h, BitVec.toNat_ofNat, field]
  simp [long, fits]

/-- R38: ACKINFO agrees with its bounds by its own value only. -/
theorem ackOk_frame {s t : State} (h : s.ackOk = true) (ack : t.ackinfo = s.ackinfo) : t.ackOk = true := by
  simpa [State.ackOk, ack] using h

/-- R183: the FSM writes a header to ACKINFO only, and its length is within the capacity. -/
theorem FsmMove.ackOk {s t : State} (m : FsmMove s t) (bounds : s.InBounds) (h : s.ackOk = true) : t.ackOk = true := by
  cases m with
  | parsed here _ _ long fits =>
    rw [State.InBounds, here] at bounds
    obtain ⟨op, _⟩ := bounds
    have cap : s.cap ≤ 26 := by
      simp only [State.recvOp, State.capFrom, Bool.or_eq_true, Bool.and_eq_true, decide_eq_true_eq] at op
      omega
    refine ackOk_of_header (len := s.rxf 0) long (by omega) (aerr := s.rxf 1) (astate := s.rxf 2) ?_
    simp [State.rxf]
  | _ => exact ackOk_frame h (by simp)

/-- R124, R125: PARSE writes a header to ACKINFO; no other launch part writes it. -/
theorem Launched.ackOk {s t : State} {i : Instr} (m : Launched s i t) (h : s.ackOk = true) : t.ackOk = true := by
  cases m with
  | parseAccepted fits accepted =>
    obtain ⟨long, len, rfl⟩ := parseAck_eq_some _ _ _ accepted
    exact ackOk_of_header (len := s.rxf 0) long (by omega) rfl
  | _ => exact ackOk_frame h (by simp)

/-! ### The control invariant -/

/-- The invariant, one clause each. -/
theorem inv_iff (s : State) :
    s.Inv = true ↔ s.csN = s.st.csIdle ∧ s.InBounds ∧ s.flagsOk = true ∧ s.ackOk = true := by
  simp only [State.Inv, Bool.and_eq_true, stOk_iff, and_assoc]

/-- The FSM keeps the invariant. -/
theorem fsmStep_inv {s : State} (h : s.Inv = true) : (fsmStep s).Inv = true := by
  rw [inv_iff] at h ⊢
  obtain ⟨cs, bounds, flags, ack⟩ := h
  have m := fsmStep_move s
  exact ⟨m.csN cs, m.inBounds bounds, fsmStep_flagsOk flags, m.ackOk bounds ack⟩

/-- R233: a Fatal with a named cause keeps the invariant. -/
theorem raiseFatal_inv {c : FatalCause} (named : c ≠ .none) {s : State} (cs : s.csN = s.st.csIdle) (ack : s.ackOk = true) :
    (raiseFatal c s).Inv = true := by
  rw [inv_iff]
  refine ⟨?_, by simp [State.InBounds], raiseFatal_flagsOk named s, ackOk_frame ack (by simp)⟩
  rw [raiseFatal_csN c cs]
  simp [FsmState.csIdle]

/-- R75: a block that meets the invariant and is neither BUSY nor FATAL is in IDLE. -/
theorem idle_of_flagsOk {s : State} (h : s.flagsOk = true) (fatal : s.fatal = false) (busy : s.busy = false) : s.st = .idle := by
  obtain ⟨fault, _⟩ := (flagsOk_iff s).mp h
  cases here : s.st <;> simp_all [State.busy, FsmState.busy]

/-- R75: a register write to an idle block keeps the invariant. -/
theorem writeReg_inv (r : HostReg) (v : Word) {s : State} (h : s.Inv = true) (idle : s.st = .idle) : (writeReg r v s).Inv = true := by
  have same : (writeReg r v s).csN = s.csN ∧ (writeReg r v s).st = s.st ∧ (writeReg r v s).flagsOk = s.flagsOk ∧
      (writeReg r v s).ackOk = s.ackOk := by
    cases r with
    | buf b w => cases b <;> exact ⟨rfl, rfl, rfl, rfl⟩
    | _ => exact ⟨rfl, rfl, rfl, rfl⟩
  obtain ⟨cs, st, flags, ack⟩ := same
  rw [inv_iff] at h ⊢
  simpa [cs, st, flags, ack, State.InBounds, idle] using h

/-- Settles O45: the FSM keeps each part of the invariant; a Fatal, a launch and reset give each part anew; an access changes none of
what the invariant speaks of. -/
theorem everyStepKeepsTheInvariant : Obligations.EveryStepKeepsTheInvariant := by
  unfold Obligations.EveryStepKeepsTheInvariant
  intro s t h hstep
  have inv := h
  rw [inv_iff] at h
  obtain ⟨cs, _, flags, ack⟩ := h
  cases stepped_of_step hstep with
  | fsm rest _ => exact fsmStep_inv (s := { s with agenda := rest }) inv
  | answer rest rs _ => exact inv
  | busyWrite _ _ rest => exact raiseFatal_inv (by decide) (s := answered rest [.write true] s) cs ack
  | illegal v rest => exact raiseFatal_inv (by decide) (s := acceptWord v (answered rest [.write true] s)) cs ack
  | launch v i rest t _ fatal busy legal launched =>
    obtain ⟨_, held⟩ := decode_eq_ok legal
    have idle := idle_of_flagsOk flags fatal busy
    have inactive : s.csN = true := by rw [cs, idle]; rfl
    obtain ⟨_, _, cause, _⟩ := (flagsOk_iff s).mp flags
    rw [inv_iff]
    exact ⟨launched.csN inactive, launched.inBounds held, launched.flagsOk fatal (cause.mpr fatal) rfl rfl rfl rfl, launched.ackOk ack⟩
  | write _ r v rest _ fatal busy =>
    exact writeReg_inv r v (s := answered rest [.write true] s) inv (idle_of_flagsOk flags fatal busy)
  | reset rest _ => rfl

/-- Settles O46: every clause is about a field that `State.resetWith` writes out. -/
theorem theInvariantHoldsAtReset : Obligations.TheInvariantHoldsAtReset := by
  unfold Obligations.TheInvariantHoldsAtReset
  have flags : State.reset.flagsOk = true := by rw [flagsOk_iff]; simp [State.reset, State.resetWith, State.busy, FsmState.busy]
  exact ⟨(inv_iff _).mpr ⟨rfl, trivial, flags, rfl⟩, by rw [State.memOk, Memory.wf_reset]; rfl⟩

/-! ### The buffers -/

/-- R40: the storage is canonical and lists buffer bytes only. -/
def Memory.Canonical (m : Memory) : Prop := Memory.wf m = true ∧ ∀ c ∈ m, bufferOffset c.1 = true

theorem memOk_iff (s : State) : s.memOk = true ↔ Memory.Canonical s.mem := by
  simp [State.memOk, Memory.Canonical]

theorem bufferOffset_iff (x : Nat) : bufferOffset x = true ↔
    (0x40 ≤ x ∧ x < 0x4C) ∨ (0x50 ≤ x ∧ x < 0x6A) ∨ (0x70 ≤ x ∧ x < 0x8A) ∨ (0x90 ≤ x ∧ x < 0xA7) := by
  simp [bufferOffset, or_assoc]

/-- R30: a byte of a buffer stands at a buffer offset. -/
theorem bufferOffset_of_lt {b : Buf} {j : Nat} (h : j < b.size) : bufferOffset (b.base + j) = true := by
  rw [bufferOffset_iff]
  cases b <;> simp only [Buf.size, Buf.base] at h ⊢ <;> omega

/-- A write lists no offset but the written one and those listed before. -/
theorem Memory.mem_write {m : Memory} {x : Nat} {v : Byte} {c : Host.Cell} (h : c ∈ Memory.write m x v) : c.1 = x ∨ c ∈ m := by
  unfold Memory.write at h
  split at h
  · exact .inr ((Memory.erase_sub m x).subset h)
  · rcases (Memory.mem_insert _ x v c).mp h with rfl | old
    · exact .inl rfl
    · exact .inr ((Memory.erase_sub m x).subset old)

theorem Memory.canonical_writeBuf {m : Memory} (b : Buf) (j : Nat) (v : Byte) (h : Memory.Canonical m) :
    Memory.Canonical (Memory.writeBuf m b j v) := by
  obtain ⟨wf, offsets⟩ := h
  refine ⟨Memory.wf_writeBuf m b j v wf, ?_⟩
  unfold Memory.writeBuf
  split
  · next inside =>
    intro c hc
    rcases Memory.mem_write hc with here | old
    · rw [here]; exact bufferOffset_of_lt inside
    · exact offsets c old
  · exact offsets

theorem Memory.canonical_storeBytes {m : Memory} (b : Buf) (start : Nat) (val : Nat → Byte) (n : Nat) (h : Memory.Canonical m) :
    Memory.Canonical (Memory.storeBytes m b start val n) := by
  induction n with
  | zero => exact h
  | succ n ih => exact Memory.canonical_writeBuf b _ _ ih

theorem packFrame_canonical (cmd : Byte) (n : Nat) {s : State} (h : Memory.Canonical s.mem) :
    Memory.Canonical (packFrame cmd n s).mem :=
  Memory.canonical_storeBytes _ _ _ _ (Memory.canonical_writeBuf _ _ _ (Memory.canonical_writeBuf _ _ _ h))

theorem openReceive_canonical {s : State} (h : Memory.Canonical s.mem) : Memory.Canonical (openReceive s).mem :=
  Memory.canonical_storeBytes _ _ _ _ h

/-- R40: what the FSM writes are bytes of RXF and APAY, and TXF by the dummy fill. -/
theorem FsmMove.canonical {s t : State} (m : FsmMove s t) (h : Memory.Canonical s.mem) : Memory.Canonical t.mem := by
  cases m with
  | turned => exact openReceive_canonical (s := csRelease (sampleBusy s)) h
  | badLength | oneByte | moreBytes => simpa using Memory.canonical_writeBuf .rxf 0 s.rxNext h
  | stored | storedLast => simpa using Memory.canonical_writeBuf .rxf s.i s.rxNext h
  | parsed => simpa using Memory.canonical_storeBytes .apay 0 _ _ h
  | _ => simpa using h

/-- R40: the launch parts write bytes of TXF and APAY. -/
theorem Launched.canonical {s t : State} {i : Instr} (m : Launched s i t) (h : Memory.Canonical s.mem) : Memory.Canonical t.mem := by
  cases m with
  | pack | sendnb | xactNoAck | xactAck => simpa using packFrame_canonical _ _ h
  | recv | readack => exact openReceive_canonical h
  | parseAccepted _ accepted =>
    obtain ⟨_, _, rfl⟩ := parseAck_eq_some _ _ _ accepted
    exact Memory.canonical_storeBytes _ _ _ _ h
  | _ => simpa using h

/-- R72: a word written by the host is four buffer bytes. -/
theorem writeReg_canonical (r : HostReg) (v : Word) {s : State} (h : Memory.Canonical s.mem) : Memory.Canonical (writeReg r v s).mem := by
  cases r with
  | buf b w =>
    cases b with
    | apay => exact h
    | pin | txf | rxf => exact Memory.canonical_storeBytes _ _ _ _ h
  | _ => exact h

/-- Settles O47: every store goes through the buffer writes, which keep the form. -/
theorem everyStepKeepsTheBuffersCanonical : Obligations.EveryStepKeepsTheBuffersCanonical := by
  unfold Obligations.EveryStepKeepsTheBuffersCanonical
  intro s t h hstep
  rw [memOk_iff] at h ⊢
  cases stepped_of_step hstep with
  | fsm rest _ => exact (fsmStep_move { s with agenda := rest }).canonical h
  | answer _ _ _ => exact h
  | busyWrite => simpa using h
  | illegal => simpa using h
  | launch _ _ _ _ _ _ _ _ launched => exact launched.canonical h
  | write _ r v rest => exact writeReg_canonical r v h
  | reset => exact ⟨Memory.wf_reset, by simp [blockReset, State.resetWith]⟩

/-! ### The parameters -/

/-- R264: no launch part writes the parameters. -/
theorem Launched.params {s t : State} {i : Instr} (m : Launched s i t) : t.params = s.params := by
  cases m with
  | parseAccepted _ accepted =>
    obtain ⟨_, _, rfl⟩ := parseAck_eq_some _ _ _ accepted
    rfl
  | _ => simp

/-- The registers that the host writes are not the parameters, RDY or the trace. -/
theorem writeReg_kept (r : HostReg) (v : Word) (s : State) :
    (writeReg r v s).params = s.params ∧ (writeReg r v s).rdy = s.rdy ∧ (writeReg r v s).trace = s.trace := by
  cases r with
  | buf b w => cases b <;> exact ⟨rfl, rfl, rfl⟩
  | _ => exact ⟨rfl, rfl, rfl⟩

/-- Settles O48: the moves of each kind leave them, and reset copies them. -/
theorem noStepChangesTheParameters : Obligations.NoStepChangesTheParameters := by
  unfold Obligations.NoStepChangesTheParameters
  intro s t hstep
  cases stepped_of_step hstep with
  | fsm rest _ => exact (fsmStep_fixed { s with agenda := rest }).1
  | answer => rfl
  | busyWrite => simp
  | illegal => simp
  | launch _ _ _ _ _ _ _ _ launched => simpa using launched.params
  | write _ r v rest => simpa using (writeReg_kept r v (answered rest [.write true] s)).1
  | reset => rfl

/-! ### The wire trace -/

/-- R25: the FSM appends events. -/
theorem FsmMove.trace {s t : State} (m : FsmMove s t) : ∃ es, t.trace = s.trace ++ es := by
  cases m <;> simp [List.append_assoc]

/-- R25: a launch part records nothing but the Deselect of a Fatal in an open phase. -/
theorem Launched.trace {s t : State} {i : Instr} (m : Launched s i t) : ∃ es, t.trace = s.trace ++ es := by
  cases m with
  | parseAccepted _ accepted =>
    obtain ⟨_, _, rfl⟩ := parseAck_eq_some _ _ _ accepted
    exact ⟨[], (List.append_nil _).symm⟩
  | _ => simp

/-- Settles O49: every move but reset appends, the host's own moves nothing or the Deselect of a Fatal. -/
theorem theTraceOnlyGrowsUntilReset : Obligations.TheTraceOnlyGrowsUntilReset := by
  unfold Obligations.TheTraceOnlyGrowsUntilReset
  intro s t hstep
  cases stepped_of_step hstep with
  | fsm rest head =>
    have noReset : ∀ ms, s.agenda ≠ .rst :: ms := by rcases head with head | ⟨head, _⟩ <;> simp [head]
    exact .inr ⟨noReset, (fsmStep_move { s with agenda := rest }).trace⟩
  | answer _ _ head => exact .inr ⟨head, [], (List.append_nil _).symm⟩
  | busyWrite _ _ _ head => exact .inr ⟨by simp [head], by simp⟩
  | illegal _ _ head => exact .inr ⟨by simp [head], by simp⟩
  | launch _ _ _ _ head _ _ _ launched => exact .inr ⟨by simp [head], by simpa using launched.trace⟩
  | write _ r v rest head => exact .inr ⟨by simp [head], [], by simp [(writeReg_kept r v _).2.2]⟩
  | reset rest head => exact .inl ⟨⟨rest, head⟩, rfl⟩

/-! ### Bus errors -/

/-- R16: with SPI_CAN_FAIL false no exchange reports an error, and only such an exchange ends with BUSERR. -/
theorem FsmMove.result_ne_buserr {s t : State} (m : FsmMove s t) (safe : s.params.spiCanFail = false) (h : s.result ≠ .buserr) :
    t.result ≠ .buserr := by
  cases m with
  | busError _ _ err => simp [State.errNext, safe] at err
  | parsed =>
    have other : replyResult s ≠ .buserr := by unfold replyResult; split <;> decide
    simpa using other
  | _ => simp [h]

/-- Settles O50, by induction on the number of steps. -/
theorem noBusErrorWhenSpiCannotFail : Obligations.NoBusErrorWhenSpiCannotFail := by
  unfold Obligations.NoBusErrorWhenSpiCannotFail
  intro s n safe h
  induction n generalizing s with
  | zero => exact h
  | succ n ih =>
    have params : (fsmStep s).params = s.params := (fsmStep_fixed s).1
    exact ih (fsmStep s) (params ▸ safe) ((fsmStep_move s).result_ne_buserr safe h)

/-! ### RDY -/

/-- R170: of the FSM's steps only the sample of ISRDY writes RDY. -/
theorem FsmMove.rdy {s t : State} (m : FsmMove s t) (h : s.st ≠ .smp) : t.rdy = s.rdy := by
  cases m with
  | sampled here => exact absurd here h
  | _ => simp

/-- R170: of the launch parts only that of ISRDY writes RDY, and it clears it. -/
theorem Launched.rdy {s t : State} {i : Instr} (m : Launched s i t) : t.rdy = s.rdy ∨ i = .isrdy ∧ t.rdy = false := by
  cases m with
  | isrdy => exact .inr ⟨rfl, rfl⟩
  | parseAccepted _ accepted =>
    obtain ⟨_, _, rfl⟩ := parseAck_eq_some _ _ _ accepted
    exact .inl rfl
  | _ => left; simp

/-- Settles O51: of the moves, reset, the FSM in SMP and the launch of ISRDY are those that write RDY. -/
theorem rdyChangesOnlyByIsrdy : Obligations.RdyChangesOnlyByIsrdy := by
  unfold Obligations.RdyChangesOnlyByIsrdy
  intro s t hstep changed
  cases stepped_of_step hstep with
  | fsm rest _ =>
    exact .inr (.inl (by_contra fun other => changed ((fsmStep_move { s with agenda := rest }).rdy other)))
  | answer => exact absurd rfl changed
  | busyWrite => simp at changed
  | illegal => simp at changed
  | launch v i rest t head _ _ legal launched =>
    rcases launched.rdy with same | ⟨rfl, clear⟩
    · exact absurd (by simpa using same) changed
    · exact .inr (.inr ⟨v, rest, head, legal, clear⟩)
  | write _ r v rest => exact absurd (by simp [(writeReg_kept r v _).2.1]) changed
  | reset rest head => exact .inl ⟨rest, head⟩

end Sys2Proof.Machine

/-! # 20_memory.md and 60_exceptions.md: accesses, launches, Fatal and reset -/
namespace Sys2Proof.Machine

/-! ### Outcomes -/

/-- Settles O7: every launch part has one of the next states of `Launched`. -/
theorem everyOperationHasANextState : Obligations.EveryOperationHasANextState := by
  unfold Obligations.EveryOperationHasANextState
  intro i s
  obtain ⟨t, ht, _⟩ := exec_launched i s
  exact ⟨t, ht⟩

/-- R92, R231: a launch answers a next state, for a word that is no operation too. -/
theorem launch_next (v : Word) (s : State) : ∃ t, launch v s = .next t := by
  cases h : decode v with
  | error e => exact ⟨_, launch_illegal s h⟩
  | ok i =>
    obtain ⟨t, ht, _⟩ := exec_launched i (latchWord v s)
    exact ⟨t, (launch_legal s h).trans ht⟩

/-- R236: a host write answers a next state. -/
theorem hostWrite_next (addr : BitVec 8) (v : Word) (s : State) : ∃ t, hostWrite addr v s = .next t := by
  rcases hostWrite_cases addr v s with
    ⟨_, e⟩ | ⟨r, _, ⟨_, e⟩ | ⟨_, _, e⟩ | ⟨_, _, _, e⟩ | ⟨_, _, _, e⟩ | ⟨_, _, _, _, e⟩⟩ <;> rw [e]
  · exact ⟨_, rfl⟩
  · exact ⟨_, rfl⟩
  · exact ⟨_, rfl⟩
  · exact ⟨_, rfl⟩
  · exact launch_next v _
  · exact ⟨_, rfl⟩

/-- Settles O8: of the heads of the agenda only the empty one, in FAULT, answers anything but a next state. -/
theorem onlyAFinishedFaultStops : Obligations.OnlyAFinishedFaultStops := by
  unfold Obligations.OnlyAFinishedFaultStops
  intro s
  rcases step_cases s with ⟨empty, fault, e⟩ | ⟨_, _, e⟩ | ⟨rest, _, e⟩ | ⟨addr, rest, _, e⟩ | ⟨addr, v, rest, _, e⟩ | ⟨rest, _, e⟩ |
    ⟨rest, _, e⟩
  case inl =>
    rw [e]
    exact ⟨fun r h => ⟨empty, fault, by cases h; rfl⟩, fun r h => by cases h⟩
  case inr.inr.inr.inr.inl =>
    obtain ⟨t, ht⟩ := hostWrite_next addr v { s with agenda := rest }
    simp [e, ht]
  all_goals simp [e]

/-- Settles O5: the head of the agenda is a write to OPWORD, whose launch latches the word. -/
theorem stepRunsTheDecodedOperation : Obligations.StepRunsTheDecodedOperation := by
  unfold Obligations.StepRunsTheDecodedOperation
  intro s v i rest head notFatal notBusy legal
  calc step s
    _ = hostWrite 0x00#8 v { s with agenda := rest } := step_hostWrite head
    _ = launch v (respond (.write true) { s with agenda := rest }) := hostWrite_opword v _ notFatal notBusy
    _ = exec i (latchWord v (respond (.write true) { s with agenda := rest })) := launch_legal _ legal
    _ = _ := rfl

/-! ### Fatal, FAULT and reset -/

/-- R142: the eight states of an open phase are those of a send or a receive phase. -/
theorem phaseOpen_eq (st : FsmState) : st.phaseOpen = (st.sending || st.receiving) := by
  cases st <;> rfl

/-- R233: an open phase releases chip-select once. -/
theorem raiseFatal_of_phase_open (c : FatalCause) {s : State} (isOpen : s.st.phaseOpen = true) :
    raiseFatal c s = { s with
      csN := true, trace := s.trace ++ [.deselect], fatal := true, fcause := c, result := .fatal, done := true, st := .fault } := by
  simp [raiseFatal, isOpen, csRelease]

/-- R75: a write to a writable register while BUSY. -/
theorem hostWrite_busy {addr : BitVec 8} {r : HostReg} (v : Word) (s : State) (h : hostReg addr = some r)
    (hr : r.readOnly = false) (hf : s.fatal = false) (hb : s.busy = true) :
    hostWrite addr v s = .next (raiseFatal .busy (respond (.write true) s)) := by
  simp [hostWrite, h, hr, hf, hb]

/-- R75 step 1: a write to a writable register in FAULT. -/
theorem hostWrite_fatal {addr : BitVec 8} {r : HostReg} (v : Word) (s : State) (h : hostReg addr = some r)
    (hr : r.readOnly = false) (hf : s.fatal = true) : hostWrite addr v s = .next (respond (.write true) s) := by
  simp [hostWrite, h, hr, hf]

/-- Settles O11: the write raises the Fatal, with a release exactly when a phase is open. -/
theorem writeWhileBusyIsFatal : Obligations.WriteWhileBusyIsFatal := by
  unfold Obligations.WriteWhileBusyIsFatal
  intro s addr v r mapped writable notFatal busy
  rw [hostWrite_busy v s mapped writable notFatal busy, ← phaseOpen_eq]
  cases isOpen : s.st.phaseOpen with
  | true => rw [raiseFatal_of_phase_open _ (by simpa using isOpen)]; simp [respond]
  | false => rw [raiseFatal_of_phase_closed _ (by simpa using isOpen)]; simp [respond]

/-- Settles O16: the eight states are those of an open phase. -/
theorem fatalEntryRecordsItsCause : Obligations.FatalEntryRecordsItsCause := by
  unfold Obligations.FatalEntryRecordsItsCause
  intro c s
  have listed : s.st ∈ [FsmState.sWaitIdle, .sWaitAccept, .sXfer, .sWaitDone, .rWaitReady, .rXferLen, .rXfer, .rWaitDone] ↔
      s.st.phaseOpen = true := by cases s.st <;> decide
  rw [listed]
  exact ⟨raiseFatal_of_phase_open c, fun closed => raiseFatal_of_phase_closed c (by simpa using closed)⟩

/-- R234: in FAULT with FATAL set an access changes the responses only. -/
theorem hostWrite_of_fatal {s : State} (fatal : s.fatal = true) (addr : BitVec 8) (v : Word) :
    ∃ rs, hostWrite addr v s = .next { s with resps := s.resps ++ rs } := by
  rcases hostWrite_cases addr v s with
    ⟨_, e⟩ | ⟨r, _, ⟨_, e⟩ | ⟨_, _, e⟩ | ⟨_, notFatal, _⟩ | ⟨_, notFatal, _⟩ | ⟨_, _, notFatal, _⟩⟩
  · exact ⟨_, e⟩
  · exact ⟨_, e⟩
  · exact ⟨_, e⟩
  all_goals simp [fatal] at notFatal

/-- Settles O17: each move of the agenda but reset. -/
theorem faultIsStickyUntilReset : Obligations.FaultIsStickyUntilReset := by
  unfold Obligations.FaultIsStickyUntilReset
  intro s fault fatal
  refine ⟨fsmStep_fault fault, fun addr v r mapped writable => hostWrite_fatal v s mapped writable fatal,
    fun empty => by simp [step, empty, fault], fun m rest head notReset => ?_, fun rest head => ⟨_, by simp [step, head]; rfl, rfl, rfl, rfl⟩⟩
  cases m with
  | rst => exact absurd rfl notReset
  | fsm => exact ⟨[], by simp [step, head, fsmStep_fault (s := { s with agenda := rest }) fault]⟩
  | waitDone => exact ⟨_, by simp [step, head, waitDoneTurn, State.busy, fault, FsmState.busy, hostRead, respond]; rfl⟩
  | host a =>
    cases a with
    | read addr => exact ⟨_, by simp [step, head, hostAccess, hostRead, respond]; rfl⟩
    | write addr v =>
      obtain ⟨rs, e⟩ := hostWrite_of_fatal (s := { s with agenda := rest }) fatal addr v
      exact ⟨rs, (step_hostWrite head).trans e⟩

/-- Settles O19: reset writes every field out, and copies those that are not the block's. -/
theorem resetInputGivesResetValues : Obligations.ResetInputGivesResetValues := by
  unfold Obligations.ResetInputGivesResetValues
  intro s rest head
  simp only [step, head]
  rfl

/-! ### The words of the registers -/

/-- R76: a read is one step that answers. -/
theorem step_hostRead {s : State} {addr : BitVec 8} {rest : List Move} (head : s.agenda = .host (.read addr) :: rest) :
    step s = .next { s with agenda := rest, resps := s.resps ++ [hostReadResp addr s] } := by
  simp only [step, head]
  rfl

theorem toNat_configWord (c : ConfigReg) :
    (configWord c).toNat = (if c.layout = .a then 1 else 0) + 2 * (if c.capMode = .expected then 1 else 0) := by
  rcases c with ⟨layout, capMode⟩
  cases layout <;> cases capMode <;> rfl

theorem toNat_drvstateWord (r : DrvState) :
    (drvstateWord r).toNat = r.devState.toNat + 2 ^ 8 * r.devErr.toNat + 2 ^ 16 * r.valid.toNat := by
  simp only [drvstateWord, toNat_append_eq_mul_add, BitVec.toNat_ofBool, BitVec.toNat_ofNat]
  omega

theorem toNat_ackinfoWord (r : AckInfo) :
    (ackinfoWord r).toNat = r.alen.toNat + 2 ^ 8 * r.aerr.toNat + 2 ^ 16 * r.astate.toNat + 2 ^ 24 * r.aplen.toNat := by
  simp only [ackinfoWord, toNat_append_eq_mul_add, BitVec.toNat_ofNat]
  omega

theorem toNat_dregWord (r : BitVec 16) : (dregWord r).toNat = r.toNat := by
  rw [dregWord, BitVec.toNat_setWidth]
  omega

theorem toNat_statusWord (s : State) :
    (statusWord s).toNat =
      s.st.code.toNat + 2 ^ 4 * s.busy.toNat + 2 ^ 5 * s.done.toNat + 2 ^ 6 * s.fatal.toNat + 2 ^ 7 * s.csN.toNat
        + 2 ^ 8 * s.result.code.toNat + 2 ^ 11 * s.anomaly.toNat + 2 ^ 12 * s.rdy.toNat + 2 ^ 16 * s.fcause.code.toNat := by
  simp only [statusWord, toNat_append_eq_mul_add, BitVec.toNat_ofBool, BitVec.toNat_ofNat]
  omega

/-- Settles O14: the word is the sum of its fields, and each code is read off its table. -/
theorem statusWordHoldsItsFields : Obligations.StatusWordHoldsItsFields := by
  unfold Obligations.StatusWordHoldsItsFields
  intro s
  refine ⟨statusWord s, hostReadResp_mapped (r := .status) s rfl, ?_⟩
  have busy : s.busy.toNat = if s.st = .idle ∨ s.st = .fault then 0 else 1 := by
    unfold State.busy
    cases s.st <;> rfl
  rw [toNat_statusWord, busy]
  iterate 7 congr 1
  · cases s.st <;> rfl
  · cases s.result <;> rfl
  · cases s.fcause <;> rfl

/-! ### Reserved bits and pad bytes -/

/-- R72: a word is its four bytes. -/
theorem word_ext {x y : Word} (h : ∀ j, j < 4 → wordByte x j = wordByte y j) : x = y := by
  apply BitVec.eq_of_getLsbD_eq
  intro i hi
  have byte := congrArg (fun b => BitVec.getLsbD b (i % 8)) (h (i / 8) (by omega))
  simpa [wordByte, Nat.mod_lt, Nat.div_add_mod] using byte

/-- R72: a byte under a mask. -/
theorem wordByte_and (x y : Word) (j : Nat) : wordByte (x &&& y) j = wordByte x j &&& wordByte y j := by
  simp [wordByte, BitVec.extractLsb'_and]

/-- R40, R72: of a buffer word the pad bytes are reserved. -/
theorem wordByte_reservedMask (b : Buf) {w j : Nat} (hw : 4 * w < b.size) (hj : j < 4) :
    wordByte (reservedMask (BitVec.ofNat 8 (b.base + 4 * w))) j = if 4 * w + j < b.size then 0#8 else .allOnes 8 := by
  have table : ∀ w < 7, ∀ j < 4, 4 * w < b.size →
      wordByte (reservedMask (BitVec.ofNat 8 (b.base + 4 * w))) j = if 4 * w + j < b.size then 0#8 else .allOnes 8 := by
    cases b <;> decide
  have small : w < 7 := by cases b <;> simp only [Buf.size] at hw <;> omega
  exact table w small j hj hw

/-- R40, R72: a write stores the bytes of a buffer word that are not pads. -/
theorem wordByte_writeMask {b : Buf} (writable : b ≠ .apay) {w j : Nat} (hw : 4 * w < b.size) (hj : j < 4) :
    wordByte (writeMask (BitVec.ofNat 8 (b.base + 4 * w))) j = if 4 * w + j < b.size then .allOnes 8 else 0#8 := by
  have table : ∀ w < 7, ∀ j < 4, 4 * w < b.size →
      wordByte (writeMask (BitVec.ofNat 8 (b.base + 4 * w))) j = if 4 * w + j < b.size then .allOnes 8 else 0#8 := by
    cases b with
    | apay => exact absurd rfl writable
    | pin | txf | rxf => decide
  have small : w < 7 := by cases b <;> simp only [Buf.size] at hw <;> omega
  exact table w small j hj hw

/-- R40: a pad byte reads 0. -/
theorem Memory.readBuf_pad (m : Memory) {b : Buf} {j : Nat} (h : ¬ j < b.size) : Memory.readBuf m b j = 0#8 := if_neg h

/-- R72, R76: the pad bytes of a buffer word read 0. -/
theorem bufWord_reserved (m : Memory) (b : Buf) {w : Nat} (hw : 4 * w < b.size) :
    bufWord m b w &&& reservedMask (BitVec.ofNat 8 (b.base + 4 * w)) = 0#32 := by
  refine word_ext fun j hj => ?_
  rw [wordByte_and, wordByte_bufWord m b w hj, wordByte_reservedMask b hw hj]
  split_ifs with inside
  · simp [wordByte]
  · simp [Memory.readBuf_pad m inside, wordByte]

/-- A word below 2^k has no bit from k on. -/
theorem and_highBits_eq_zero {x : Word} {k : Nat} (h : x.toNat < 2 ^ k) : x &&& (BitVec.allOnes 32 <<< k) = 0#32 := by
  apply BitVec.eq_of_getLsbD_eq
  intro i hi
  by_cases low : i < k
  · simp [low]
  · have clear : x.getLsbD i = false := Nat.testBit_lt_two_pow (h.trans_le (Nat.pow_le_pow_right (by decide) (Nat.not_lt.mp low)))
    simp [clear]

/-- R32: the reserved bits of STATUS are those between its fields. -/
theorem statusWord_reserved (s : State) : statusWord s &&& reservedMask 0x04#8 = 0#32 := by
  have mask : reservedMask 0x04#8 = 0xFFF#12 ++ 0#4 ++ 7#3 ++ 0#1 ++ 0#1 ++ 0#3 ++ 0#1 ++ 0#1 ++ 0#1 ++ 0#1 ++ 0#4 := rfl
  have zero : 0#32 = (0#12 ++ 0#4 ++ 0#3 ++ 0#1 ++ 0#1 ++ 0#3 ++ 0#1 ++ 0#1 ++ 0#1 ++ 0#1 ++ 0#4 : Word) := rfl
  rw [mask, zero, statusWord]
  iterate 10 refine BitVec.and_append.trans (congrArg₂ (· ++ ·) ?_ (by simp))
  rfl

/-- R36 to R39, R76: a mapped register reads with its reserved bits 0. -/
theorem readReg_reserved {addr : BitVec 8} {r : HostReg} (h : hostReg addr = some r) (s : State) :
    readReg r s &&& reservedMask addr = 0#32 := by
  obtain rfl := eq_offset_of_hostReg h
  obtain ⟨_, inMap⟩ := mapped_of_hostReg h
  cases r with
  | opword | freq | fcint | fcfrac => exact BitVec.and_zero
  | status => exact statusWord_reserved s
  | config =>
    have small : (configWord s.config).toNat < 2 ^ 2 := by rw [toNat_configWord]; split_ifs <;> decide
    exact and_highBits_eq_zero small
  | drvstate =>
    have small : (drvstateWord s.drvstate).toNat < 2 ^ 17 := by
      have flag := s.drvstate.valid.toNat_le
      rw [toNat_drvstateWord]; omega
    exact and_highBits_eq_zero small
  | ackinfo =>
    have small : (ackinfoWord s.ackinfo).toNat < 2 ^ 29 := by rw [toNat_ackinfoWord]; omega
    exact and_highBits_eq_zero small
  | dreg0 | dreg1 =>
    have small : ∀ d, (dregWord d).toNat < 2 ^ 16 := fun d => by rw [toNat_dregWord]; exact d.isLt
    exact and_highBits_eq_zero (small _)
  | buf b w => exact bufWord_reserved s.mem b inMap

/-- Settles O13: the offset falls on a register, whose word is its fields put together. -/
theorem readsHaveNoSideEffect : Obligations.ReadsHaveNoSideEffect := by
  unfold Obligations.ReadsHaveNoSideEffect
  intro s addr
  refine ⟨fun rest head => step_hostRead head, fun r mapped => ⟨_, hostReadResp_mapped s mapped, readReg_reserved mapped s⟩,
    rfl, ⟨_, rfl, toNat_configWord s.config⟩, ⟨_, rfl, toNat_drvstateWord s.drvstate⟩, ⟨_, rfl, toNat_ackinfoWord s.ackinfo⟩,
    rfl, rfl, rfl, ⟨_, rfl, toNat_dregWord s.dreg0⟩, ⟨_, rfl, toNat_dregWord s.dreg1⟩⟩

/-! ### Reading back -/

/-- R36: CONFIG stores the two low bits. -/
theorem configWord_configOfWord (v : Word) : configWord (configOfWord v) = v &&& 3#32 := by
  apply BitVec.eq_of_toNat_eq
  have low : (v &&& 3#32).toNat = v.toNat % 2 ^ 2 := Nat.and_two_pow_sub_one_eq_mod v.toNat 2
  have bit0 : v.getLsbD 0 = decide (v.toNat % 2 = 1) := by
    rw [BitVec.getLsbD, Nat.testBit_eq_decide_div_mod_eq]; simp
  have bit1 : v.getLsbD 1 = decide (v.toNat / 2 % 2 = 1) := by
    rw [BitVec.getLsbD, Nat.testBit_eq_decide_div_mod_eq, Nat.pow_one]
  rw [toNat_configWord, low, configOfWord, bit0, bit1]
  by_cases h0 : v.toNat % 2 = 1 <;> by_cases h1 : v.toNat / 2 % 2 = 1 <;> simp [h0, h1] <;> omega

/-- R39: DREG0 and DREG1 store the low half. -/
theorem dregWord_dregOfWord (v : Word) : dregWord (dregOfWord v) = v &&& 0xFFFF#32 := by
  apply BitVec.eq_of_toNat_eq
  have low : (v &&& 0xFFFF#32).toNat = v.toNat % 2 ^ 16 := Nat.and_two_pow_sub_one_eq_mod v.toNat 16
  rw [toNat_dregWord, low, dregOfWord, BitVec.extractLsb'_toNat, Nat.shiftRight_zero]

/-- R72: a buffer word reads what was written to it, its pad bytes 0. -/
theorem bufWord_writeBufWord_same (m : Memory) {b : Buf} (writable : b ≠ .apay) {w : Nat} (hw : 4 * w < b.size) (v : Word) :
    bufWord (writeBufWord m b w v) b w = v &&& writeMask (BitVec.ofNat 8 (b.base + 4 * w)) := by
  refine word_ext fun j hj => ?_
  rw [wordByte_and, wordByte_bufWord _ b w hj, wordByte_writeMask writable hw hj, writeBufWord, Memory.readBuf_storeBytes]
  by_cases inside : 4 * w + j < b.size
  · rw [if_pos ⟨rfl, by omega, by omega, inside⟩, if_pos inside, BitVec.and_allOnes, Nat.add_sub_cancel_left]
  · simp [inside, Memory.readBuf_pad]

/-- R72: the other buffer words stay. -/
theorem bufWord_writeBufWord_other (m : Memory) {b b' : Buf} {w w' : Nat} (v : Word) (other : HostReg.buf b' w' ≠ .buf b w) :
    bufWord (writeBufWord m b w v) b' w' = bufWord m b' w' := by
  refine word_ext fun j hj => ?_
  rw [wordByte_bufWord _ b' w' hj, wordByte_bufWord _ b' w' hj, writeBufWord, Memory.readBuf_storeBytes, if_neg]
  rintro ⟨rfl, lo, hi, _⟩
  exact other (by rw [show w' = w by omega])

/-- R75: a register reads back what was written to it. -/
theorem readReg_writeReg_same {addr : BitVec 8} {r : HostReg} (h : hostReg addr = some r) (writable : r.readOnly = false)
    (notOpword : r ≠ .opword) (v : Word) (s : State) : readReg r (writeReg r v s) = v &&& writeMask addr := by
  obtain rfl := eq_offset_of_hostReg h
  obtain ⟨_, inMap⟩ := mapped_of_hostReg h
  cases r with
  | opword => exact absurd rfl notOpword
  | status | drvstate | ackinfo => cases writable
  | config => exact configWord_configOfWord v
  | freq | fcint | fcfrac => exact BitVec.and_allOnes.symm
  | dreg0 | dreg1 => exact dregWord_dregOfWord v
  | buf b w =>
    have notApay : b ≠ .apay := by rintro rfl; cases writable
    rw [writeReg_buf notApay]
    exact bufWord_writeBufWord_same s.mem notApay inMap v

/-- R75: the other registers stay. -/
theorem readReg_writeReg_other {r r' : HostReg} (other : r' ≠ r) (v : Word) (s : State) :
    readReg r' (writeReg r v s) = readReg r' s := by
  cases r with
  | opword | status | drvstate | ackinfo => rfl
  | config =>
    cases r' with
    | config => exact absurd rfl other
    | _ => rfl
  | freq =>
    cases r' with
    | freq => exact absurd rfl other
    | _ => rfl
  | fcint =>
    cases r' with
    | fcint => exact absurd rfl other
    | _ => rfl
  | fcfrac =>
    cases r' with
    | fcfrac => exact absurd rfl other
    | _ => rfl
  | dreg0 =>
    cases r' with
    | dreg0 => exact absurd rfl other
    | _ => rfl
  | dreg1 =>
    cases r' with
    | dreg1 => exact absurd rfl other
    | _ => rfl
  | buf b w =>
    by_cases apay : b = .apay
    · subst apay; rfl
    · rw [writeReg_buf apay]
      cases r' with
      | buf b' w' => exact bufWord_writeBufWord_other s.mem v other
      | _ => rfl

/-- Settles O12: the write takes the register's value and nothing else, and distinct offsets fall on distinct registers. -/
theorem writtenRegisterReadsBack : Obligations.WrittenRegisterReadsBack := by
  unfold Obligations.WrittenRegisterReadsBack
  intro s addr v r mapped writable notOpword notFatal notBusy
  refine ⟨_, hostWrite_writable v s mapped writable notOpword notFatal notBusy, ?same, fun a apart => ?other, ?frame⟩
  case same => rw [hostReadResp_mapped _ mapped, readReg_writeReg_same mapped writable notOpword]
  case other =>
    cases hr : hostReg a with
    | none => simp [hostReadResp, hr]
    | some r' =>
      have distinct : r' ≠ r := by rintro rfl; exact apart (hostReg_inj hr mapped)
      rw [hostReadResp_mapped _ hr, hostReadResp_mapped _ hr, readReg_writeReg_other distinct]
      cases r' <;> rfl
  case frame =>
    cases r with
    | buf b w => cases b <;> rfl
    | _ => rfl

end Sys2Proof.Machine

/-! # The launch parts -/
namespace Sys2Proof.Machine

/-! ### The checks -/

/-- R94: a command id out of range. -/
theorem cmdLegal_eq_false {p : Params} {cmd : Byte} (h : ¬ (p.cmdFirst.toNat ≤ cmd.toNat ∧ cmd.toNat ≤ p.cmdLast.toNat)) :
    cmdLegal p cmd = false := by
  rw [← Bool.not_eq_true, cmdLegal_eq_true_iff]
  exact h

/-- Settles O18: each operation's checks stand first in its launch part, in this order. -/
theorem launchChecksFailInOrder : Obligations.LaunchChecksFailInOrder := by
  unfold Obligations.LaunchChecksFailInOrder
  intro s
  refine ⟨fun cmd n bad => ?badCmd, fun cmd n first last long => ?badLen, fun cmd n tc apl first last short long => ?badApl,
    fun cap bad => ?parse, fun n bad => ?send, fun cap tc bad => ?recv, fun cap tc bad => ?readack, fun bad => ?hz2reg,
    fun bad => ?reg2hz, fun layout lacks => ?lacksA, fun layout hasA bad => ?storeA, fun layout bad => ?storeB⟩
  case badCmd =>
    have illegal := cmdLegal_eq_false bad
    simp [exec, execPack, execSendnb, execXact, illegal]
  case badLen =>
    have legal := (cmdLegal_eq_true_iff s.params cmd).mpr ⟨first, last⟩
    simp [exec, execPack, execSendnb, execXact, legal, long]
  case badApl =>
    have legal := (cmdLegal_eq_true_iff s.params cmd).mpr ⟨first, last⟩
    simp [exec, execXact, legal, long, Nat.not_lt.mpr short]
  case parse => exact if_pos bad
  case send => exact if_pos (by omega)
  case recv => exact if_pos (by simpa [Nat.lt_one_iff] using bad)
  case readack => exact if_pos bad
  case hz2reg => exact if_pos bad
  case reg2hz => exact if_pos bad
  case lacksA => simp [exec, execStore, execRestore, layout, lacks]
  case storeA =>
    change execStore s = _
    simp only [execStore, layout]
    rw [if_neg (by simp [hasA]), if_pos bad]
  case storeB =>
    change execStore s = _
    simp only [execStore, layout]
    rw [if_pos bad]

/-! ### The codec -/

/-- R124: ParseAck of a length that it accepts. -/
theorem parseAck_of_fits {c : Nat} {s : State} (long : 3 ≤ (s.rxf 0).toNat) (fits : (s.rxf 0).toNat - 3 ≤ c) :
    parseAck c s = some { s with
      ackinfo := ⟨BitVec.ofNat 5 ((s.rxf 0).toNat - 3), s.rxf 2, s.rxf 1, s.rxf 0⟩
      mem := Memory.storeBytes s.mem .apay 0 (fun j => s.rxf (3 + j)) ((s.rxf 0).toNat - 3) } := by
  simp only [parseAck, Config.ackHdr]
  rw [if_neg (by omega), if_neg (by omega)]

/-- R125: PARSE of a length that ParseAck accepts. -/
theorem exec_parse_of_accepted {cap : Nat} {s u : State} (hcap : cap ≤ 23) (accepted : parseAck cap s = some u) :
    exec (.parse cap) s = .next (finish .ok u) := by
  change execParse cap s = _
  simp only [execParse, if_neg (Nat.not_lt.mpr hcap), accepted]

/-- R38: APLEN of a header of at most 26 bytes. -/
theorem aplen_add_three {len : Nat} (long : 3 ≤ len) (fits : len ≤ 26) : (BitVec.ofNat 5 (len - 3)).toNat + 3 = len := by
  rw [BitVec.toNat_ofNat]
  omega

/-- R124: the payload that a parse stores. -/
theorem storeApay_apay (m : Memory) (val : Nat → Byte) {n j : Nat} (hn : n ≤ 23) (hj : j < n) :
    Memory.readBuf (Memory.storeBytes m .apay 0 val n) .apay j = val j := by
  rw [Memory.readBuf_storeBytes, if_pos ⟨rfl, by omega, by omega, by simp only [Buf.size]; omega⟩, Nat.sub_zero]

/-- R124: a parse stores nothing but the payload. -/
theorem storeApay_read (m : Memory) (val : Nat → Byte) (n : Nat) {x : Nat} (hx : ¬ (0x90 ≤ x ∧ x < 0x90 + n)) :
    Memory.read (Memory.storeBytes m .apay 0 val n) x = Memory.read m x := by
  rw [Memory.read_storeBytes, if_neg (by simp only [Buf.base]; omega)]

/-- Settles O22: an accepted length goes from ParseAck to `finish`. -/
theorem parseCopiesHeaderAndPayload : Obligations.ParseCopiesHeaderAndPayload := by
  unfold Obligations.ParseCopiesHeaderAndPayload
  intro s cap hcap long fits
  have ends := exec_parse_of_accepted hcap (parseAck_of_fits long fits)
  refine ⟨_, ends, rfl, rfl, rfl, rfl, aplen_add_three long (by omega), fun j hj => ?payload, fun x hx => ?frame⟩
  case payload => exact storeApay_apay s.mem _ (by omega) hj
  case frame => exact storeApay_read s.mem _ _ hx

/-! ### The operations with a phase or a wait -/

/-- Settles O24: the fields that each launch part sets. -/
theorem launchOfSendWaitrdyIsrdyDelay : Obligations.LaunchOfSendWaitrdyIsrdyDelay := by
  unfold Obligations.LaunchOfSendWaitrdyIsrdyDelay
  intro s
  refine ⟨fun n pos short => ?send, fun tc => rfl, rfl, fun ms zero => ?delayNone, fun ms nonzero => ?delay⟩
  case send => exact if_neg (by omega)
  case delayNone => exact if_pos zero
  case delay => exact if_neg nonzero

/-- R147: the receive phase is entered with TXF[0..cap-1] filled, whatever stood there. -/
theorem openReceive_txf {cap : Nat} (fits : cap ≤ 26) (s : State) {j : Nat} (hj : j < cap) :
    (openReceive { s with cap := cap }).txf j = 0xFF#8 := by
  change Memory.readBuf (dummyFill cap { s with cap := cap }).mem .txf j = _
  rw [dummyFill_readBuf, if_pos ⟨rfl, hj, by omega⟩]

/-- R147: entering the receive phase changes nothing but the filled bytes. -/
theorem openReceive_read (cap : Nat) (s : State) {x : Nat} (hx : ¬ (0x50 ≤ x ∧ x < 0x50 + cap)) :
    Memory.read (openReceive { s with cap := cap }).mem x = Memory.read s.mem x :=
  dummyFill_read cap { s with cap := cap } x hx

/-- R150, R190: the launch part of RECV and READACK with a legal capacity. -/
theorem exec_recv_of_legal {cap : Nat} (tc : TimeoutClass) (s : State) (pos : 1 ≤ cap) (fits : cap ≤ 26) :
    exec (.recv cap tc) s = .next (openReceive { s with cap := cap }) :=
  if_neg (by simp only [Config.ackFrameMax]; omega)

theorem exec_readack_of_legal {cap : Nat} (tc : TimeoutClass) (s : State) (pos : 3 ≤ cap) (fits : cap ≤ 26) :
    exec (.readack cap tc) s = .next (openReceive { s with cap := cap }) :=
  if_neg (by simp only [Config.ackHdr, Config.ackFrameMax]; omega)

/-- Settles O25: both launch parts take the capacity and enter the receive phase. -/
theorem launchOfRecvAndReadackFillsTxf : Obligations.LaunchOfRecvAndReadackFillsTxf := by
  unfold Obligations.LaunchOfRecvAndReadackFillsTxf
  intro s i cap tc legal
  have fits : cap ≤ 26 := by omega
  have opened : exec i s = .next (openReceive { s with cap := cap }) := by
    rcases legal with ⟨rfl, pos, fits⟩ | ⟨rfl, pos, fits⟩
    · exact exec_recv_of_legal tc s pos fits
    · exact exec_readack_of_legal tc s pos fits
  exact ⟨_, opened, rfl, fun j hj => openReceive_txf fits s hj, fun x hx => openReceive_read cap s hx⟩

/-- R180: the launch part of XACT without an acknowledgement, with legal fields. -/
theorem exec_xactNoAck_of_legal {cmd : Byte} {n : Nat} (tc : TimeoutClass) (apl : Nat) {s : State}
    (legal : cmdLegal s.params cmd = true) (short : n ≤ 12) :
    exec (.xact cmd n tc true apl) s = .next (openSend (n + 2) (packFrame cmd n s)) := by
  change execXact cmd n tc true apl s = _
  rw [execXact, if_neg (by simp [legal]), if_neg (Nat.not_lt.mpr short), if_neg (by simp)]
  rfl

/-- R180, R182: the launch part of XACT with an acknowledgement, with legal fields. -/
theorem exec_xactAck_of_legal {cmd : Byte} {n : Nat} (tc : TimeoutClass) {apl : Nat} {s : State}
    (legal : cmdLegal s.params cmd = true) (short : n ≤ 12) (fits : apl ≤ 23) :
    exec (.xact cmd n tc false apl) s =
      .next (openSend (n + 2) { packFrame cmd n s with cap := xactCap s.config.capMode apl }) := by
  change execXact cmd n tc false apl s = _
  rw [execXact, if_neg (by simp [legal]), if_neg (Nat.not_lt.mpr short), if_neg (by simp [Nat.not_lt.mpr fits])]
  rfl

/-- R182: the capacity by CAPMODE. -/
theorem xactCap_eq (m : CapMode) (apl : Nat) : xactCap m apl = if m = .full then 26 else 3 + apl := by
  cases m <;> rfl

/-- R188: the launch part of SENDNB with legal fields. -/
theorem exec_sendnb_of_legal {cmd : Byte} {n : Nat} {s : State} (legal : cmdLegal s.params cmd = true) (short : n ≤ 12) :
    exec (.sendnb cmd n) s = .next (openSend (n + 2) (packFrame cmd n s)) := by
  change execSendnb cmd n s = _
  rw [execSendnb, if_neg (by simp [legal]), if_neg (Nat.not_lt.mpr short)]

/-- Settles O26: the checks pass, the frame is PACK's, and with NA = 1 no capacity is taken. -/
theorem launchOfXactAndSendnbPacksTheFrame : Obligations.LaunchOfXactAndSendnbPacksTheFrame := by
  unfold Obligations.LaunchOfXactAndSendnbPacksTheFrame
  intro s cmd n tc na apl first last short fits
  have legal := (cmdLegal_eq_true_iff s.params cmd).mpr ⟨first, last⟩
  have sendnb := exec_sendnb_of_legal (s := s) legal short
  have noAck := exec_xactNoAck_of_legal (s := s) tc apl legal short
  have lengthByte := packFrame_lengthByte cmd s short
  have commandByte := packFrame_commandByte cmd s short
  have payload := fun j hj => packFrame_payloadByte cmd s short (j := j) hj
  have frame := packFrame_read cmd n s
  refine ⟨sendnb.trans noAck.symm, ?_⟩
  cases na with
  | true => exact ⟨_, noAck, rfl, lengthByte, commandByte, payload, frame⟩
  | false =>
    refine ⟨_, exec_xactAck_of_legal tc legal short (fits rfl), ?_, lengthByte, commandByte, payload, frame⟩
    rw [← xactCap_eq]
    rfl

end Sys2Proof.Machine

/-! # 43_frequency.md: the codec

Each operation in its domain has one end; what it writes is arithmetic on the words, which the laws of the layouts above give. -/
namespace Sys2Proof.Machine

/-- R200: HZ2REG in its range. -/
theorem exec_hz2reg_of_range {s : State} (low : 775000000 ≤ s.freq.toNat) (high : s.freq.toNat ≤ 1100000000) :
    exec .hz2reg s =
      .next (finish .ok
        { s with
          fcint := fcintWord (hzToFcint s.params.factor s.freq.toNat)
          fcfrac := BitVec.ofNat 32 (hzToFcfrac s.params.factor s.freq.toNat) }) := by
  change execHz2reg s = _
  simp only [execHz2reg, Config.fMin, Config.fMax]
  rw [if_neg (by omega)]

/-- R199, R200: with FACTOR = 1 the integer part lies in 28..39. -/
theorem hzToFcint_one_range {f : Nat} (low : 775000000 ≤ f) (high : f ≤ 1100000000) : 28 ≤ hzToFcint 1 f ∧ hzToFcint 1 f ≤ 39 := by
  simp only [hzToFcint, Config.xoHz]
  omega

/-- Settles O52: HZ2REG writes the two floors, and both fit their registers. -/
theorem hzToRegistersIsTheForwardFormula : Obligations.HzToRegistersIsTheForwardFormula := by
  unfold Obligations.HzToRegistersIsTheForwardFormula
  intro s low high
  refine ⟨_, exec_hz2reg_of_range low high, rfl, fun fits => ?integer, ?fraction, ?small, fun one => ?range⟩
  case integer => exact fcintWord_toNat fits
  case fraction => exact fcfrac_toNat s.params.factor s.freq.toNat
  case small => exact (fcfrac_toNat s.params.factor s.freq.toNat).trans_lt (hzToFcfrac_lt _ _)
  case range =>
    have range := hzToFcint_one_range low high
    have written : (fcintWord (hzToFcint 1 s.freq.toNat)).toNat = hzToFcint 1 s.freq.toNat := fcintWord_toNat (by omega)
    simp only [finish_fields, one, written]
    exact range

/-- Settles O53: the formula's result fits its register. -/
theorem registersToHzIsTheInverseFormula : Obligations.RegistersToHzIsTheInverseFormula := by
  unfold Obligations.RegistersToHzIsTheInverseFormula
  intro s hi hf
  have written := regToHz_toNat hi hf
  exact ⟨_, exec_reg2hz_of_domain hi hf, rfl, written, written.trans_le (regToHz_le hi hf)⟩

/-- R205: the fraction loses less than one step of XO_HZ / 2^19 = 52.6… Hz, and the rounding of the way back gains less than one Hz. -/
theorem regToHz_hzToReg {f : Nat} :
    f ≤ regToHz (hzToFcint 1 f) (hzToFcfrac 1 f) + 53 ∧ regToHz (hzToFcint 1 f) (hzToFcfrac 1 f) ≤ f := by
  rw [regToHz_eq_closedForm]
  simp only [hzToFcfrac, hzToFcint, Config.xoHz, Config.fracBits, Nat.one_mul]
  omega

/-- Settles O55: the registers that HZ2REG writes lie in the domain of REG2HZ, and the two formulas are close to inverse. -/
theorem frequencyRoundTripLosesAtMost53Hz : Obligations.FrequencyRoundTripLosesAtMost53Hz := by
  unfold Obligations.FrequencyRoundTripLosesAtMost53Hz
  intro s one low high
  have range := hzToFcint_one_range low high
  have integer : (fcintWord (hzToFcint s.params.factor s.freq.toNat)).toNat = hzToFcint 1 s.freq.toNat := by
    rw [one]; exact fcintWord_toNat (by omega)
  have fraction : (BitVec.ofNat 32 (hzToFcfrac s.params.factor s.freq.toNat)).toNat = hzToFcfrac 1 s.freq.toNat := by
    rw [one]; exact fcfrac_toNat 1 s.freq.toNat
  have small := hzToFcfrac_lt 1 s.freq.toNat
  have hi : (fcintWord (hzToFcint s.params.factor s.freq.toNat)).toNat ≤ 63 := by omega
  have hf : (BitVec.ofNat 32 (hzToFcfrac s.params.factor s.freq.toNat)).toNat ≤ 2 ^ 19 - 1 := by omega
  refine ⟨_, exec_hz2reg_of_range low high, rfl, rfl, rfl, fun g => ⟨_, exec_reg2hz_of_domain hi hf, rfl, rfl, rfl, ?_⟩⟩
  have back := regToHz_toNat hi hf
  rw [integer, fraction] at back
  simp only [finish_fields, integer, fraction, back]
  exact regToHz_hzToReg

/-- Settles O56: the ends of STORE and RESTORE in Layout B, their words as arithmetic. -/
theorem layoutBPlacesTheFields : Obligations.LayoutBPlacesTheFields := by
  unfold Obligations.LayoutBPlacesTheFields
  intro s layout
  refine ⟨fun hi hf => ⟨_, exec_store_layoutB layout hi (by omega), rfl, ?dreg0, toNat_storeB1 s.fcfrac⟩,
    _, exec_restore_layoutB layout, rfl, toNat_restoreBInt s.dreg0, toNat_restoreBFrac s.dreg0 s.dreg1⟩
  case dreg0 =>
    simp only [finish_fields]
    rw [toNat_storeB0]
    omega

/-- Settles O57: the ends of STORE and RESTORE in Layout A, their words as arithmetic. -/
theorem layoutAPlacesTheFields : Obligations.LayoutAPlacesTheFields := by
  unfold Obligations.LayoutAPlacesTheFields
  intro s layout hasA
  refine ⟨fun hi hf => ⟨_, exec_store_layoutA layout hasA hi (by omega), rfl, toNat_storeA0 s.fcfrac, ?dreg1⟩,
    _, exec_restore_layoutA layout hasA, rfl, toNat_restoreAInt s.dreg1, toNat_restoreAFrac s.dreg0 s.dreg1⟩
  case dreg1 =>
    simp only [finish_fields]
    rw [toNat_storeA1]
    omega

end Sys2Proof.Machine

/-! # 41_transport.md: waits, delays and single transfers -/
namespace Sys2Proof.Machine

/-! ### Poll counts -/

/-- R17: the model's rounded-up quotient is the library's. -/
theorem ceilDiv_eq (a : Nat) {b : Nat} (hb : 1 ≤ b) : ceilDiv a b = a ⌈/⌉ b := by
  rw [Nat.ceilDiv_eq_add_pred_div, ceilDiv, Nat.add_sub_assoc hb]

/-- R17: so many ticks last at least as long, and no fewer do. -/
theorem ceilDiv_le_iff {a b n : Nat} (hb : 1 ≤ b) : ceilDiv a b ≤ n ↔ a ≤ n * b := by
  rw [ceilDiv_eq a hb, ceilDiv_le_iff_le_mul hb, Nat.mul_comm]

/-- R17: N(TC) ticks last at least the timeout. -/
theorem timeout_le_pollBound {p : Params} (tc : TimeoutClass) (hp : 1 ≤ p.pollUs) :
    timeoutUs p tc ≤ pollBound p tc * p.pollUs :=
  (ceilDiv_le_iff hp).mp (Nat.le_max_right ..)

/-- R17: no smaller count of at least 1 lasts the timeout. -/
theorem pollBound_le {p : Params} {tc : TimeoutClass} {n : Nat} (hp : 1 ≤ p.pollUs) (pos : 1 ≤ n)
    (lasts : timeoutUs p tc ≤ n * p.pollUs) : pollBound p tc ≤ n :=
  Nat.max_le.mpr ⟨pos, (ceilDiv_le_iff hp).mpr lasts⟩

/-- R95: the timeout of each class. -/
theorem timeoutUs_of_mem {p : Params} {tc : TimeoutClass} {timeout : Nat}
    (h : (tc, timeout) ∈ [(TimeoutClass.notx, p.tNotxUs), (.tx, p.tTxUs), (.txrx, p.tTxrxUs), (.init, p.tInitUs)]) :
    timeoutUs p tc = timeout := by
  simp only [List.mem_cons, Prod.mk.injEq, List.not_mem_nil, or_false] at h
  rcases h with ⟨rfl, rfl⟩ | ⟨rfl, rfl⟩ | ⟨rfl, rfl⟩ | ⟨rfl, rfl⟩ <;> rfl

/-- Settles O59: both counts are quotients rounded up. -/
theorem pollCountsAreTheCeilings : Obligations.PollCountsAreTheCeilings := by
  unfold Obligations.PollCountsAreTheCeilings
  refine ⟨fun p tc timeout hp class_ => ?poll, fun p m hp => ?delay, rfl, rfl, rfl, rfl, fun m => ?default⟩
  case poll =>
    obtain rfl := timeoutUs_of_mem class_
    exact ⟨pollBound_pos p tc, timeout_le_pollBound tc hp, fun n pos lasts => pollBound_le hp pos lasts⟩
  case delay => exact ⟨(ceilDiv_le_iff hp).mp le_rfl, fun n lasts => (ceilDiv_le_iff hp).mpr lasts⟩
  case default =>
    simp only [delayTicks, ceilDiv, Params.default]
    omega

/-- R90, R95: the timeout by the code in the latched word. -/
theorem timeoutUs_opTc {s : State} {timeout : Nat}
    (h : (s.op.toNat / 2 ^ 16 % 4, timeout) ∈
      [(0, s.params.tNotxUs), (1, s.params.tTxUs), (2, s.params.tTxrxUs), (3, s.params.tInitUs)]) :
    timeoutUs s.params s.opTc = timeout := by
  have class_ : ∀ tc, s.op.toNat / 2 ^ 16 % 4 = (fieldOfTc tc).toNat → s.opTc = tc := fun tc code => tcOfField_fieldTc code.symm
  simp only [List.mem_cons, Prod.mk.injEq, List.not_mem_nil, or_false] at h
  rcases h with ⟨code, rfl⟩ | ⟨code, rfl⟩ | ⟨code, rfl⟩ | ⟨code, rfl⟩
  · rw [class_ .notx code]; rfl
  · rw [class_ .tx code]; rfl
  · rw [class_ .txrx code]; rfl
  · rw [class_ .init code]; rfl

/-- The last of n + 1 steps. -/
theorem fsmRun_succ (n : Nat) (s : State) : fsmRun (n + 1) s = fsmStep (fsmRun n s) := fsmRun_add n 1 s

/-! ### Waits

The six waits are one: while the line shows the wrong level each step is a missed sample, and the last one ends the wait. -/

/-- R141: a missed sample before the last one. -/
theorem fsmStep_missed {s : State} (wait : s.st.waiting = true) (wrong : s.busyNext ≠ s.st.awaits) (more : s.k + 1 < s.waitBound) :
    fsmStep s = missedSample s := by
  generalize next : fsmStep s = t
  have m : FsmMove s t := next ▸ fsmStep_move s
  cases m with
  | missed => rfl
  | timeout _ _ _ last | gaveUp _ _ last => omega
  | busError _ here => rcases here with ⟨here, _⟩ | ⟨here, _⟩ | ⟨here, _⟩ <;> simp [here, FsmState.waiting] at wait
  | rest still => rcases still with here | here <;> simp [here, FsmState.waiting] at wait
  | _ => simp_all [FsmState.waiting, FsmState.awaits]

/-- R142, R143: the last missed sample of a transport phase. -/
theorem fsmStep_timeout {s : State} (wait : s.st.waiting = true) (isOpen : s.st.phaseOpen = true) (wrong : s.busyNext ≠ s.st.awaits)
    (last : s.waitBound ≤ s.k + 1) : fsmStep s = abortPhase .timeout (missedSample s) := by
  generalize next : fsmStep s = t
  have m : FsmMove s t := next ▸ fsmStep_move s
  cases m with
  | timeout => rfl
  | missed _ _ more => omega
  | busError _ here => rcases here with ⟨here, _⟩ | ⟨here, _⟩ | ⟨here, _⟩ <;> simp [here, FsmState.waiting] at wait
  | rest still => rcases still with here | here <;> simp [here, FsmState.waiting] at wait
  | _ => simp_all [FsmState.waiting, FsmState.awaits, FsmState.phaseOpen]

/-- R160: the last missed sample of WAITRDY. -/
theorem fsmStep_gaveUp {s : State} (here : s.st = .wWaitHigh) (wrong : s.busyNext = false) (last : s.waitBound ≤ s.k + 1) :
    fsmStep s = finish .timeout (missedSample s) := by
  rw [State.waitBound, here] at last
  simp only [fsmStep_wWaitHigh here, stepWWaitHigh, pollStep, wrong]
  exact if_pos last

/-- What `m` missed samples at a level leave. -/
def afterMissed (m : Nat) (level : Bool) (rest : List Bool) (s : State) : State :=
  { s with
    k := s.k + m, busyIn := rest, draws := s.draws + m,
    trace := s.trace ++ (List.replicate m [Event.sample level, Event.tick]).flatten }

/-- R141: a missed sample at the next level of the line. -/
theorem missedSample_eq {s : State} {level : Bool} {rest : List Bool} (line : s.busyIn = level :: rest) :
    missedSample s = afterMissed 1 level rest s := by
  simp [missedSample, afterMissed, tick, sampleBusy, State.busyNext, line]

theorem afterMissed_add (m n : Nat) (level : Bool) (rest rest' : List Bool) (s : State) :
    afterMissed n level rest' (afterMissed m level rest s) = afterMissed (m + n) level rest' s := by
  simp only [afterMissed, List.replicate_add, List.flatten_append, List.append_assoc, Nat.add_assoc]

/-- R141: as long as the bound is not reached the block stays in the wait. -/
theorem fsmRun_missed {s : State} {level : Bool} (wait : s.st.waiting = true) (wrong : level ≠ s.st.awaits) {m : Nat}
    {rest : List Bool} (line : s.busyIn = List.replicate m level ++ rest) (more : s.k + m < s.waitBound) :
    fsmRun m s = afterMissed m level rest s := by
  induction m generalizing s with
  | zero =>
    obtain rfl : s.busyIn = rest := line
    simp [fsmRun, afterMissed]
  | succ m ih =>
    rw [List.replicate_succ, List.cons_append] at line
    have next : s.busyNext = level := by simp [State.busyNext, line]
    rw [fsmRun, fsmStep_missed wait (next ▸ wrong) (by omega), missedSample_eq line,
      ih (s := afterMissed 1 level _ s) wait wrong rfl (by simp only [afterMissed]; change _ < s.waitBound; omega), afterMissed_add,
      Nat.add_comm 1 m]

/-- R141: the last sample of a wait that shows the wrong level all along. -/
theorem fsmRun_timeout {s : State} {level : Bool} (wait : s.st.waiting = true) (wrong : level ≠ s.st.awaits) (start : s.k = 0)
    {n : Nat} (bound : n = s.waitBound) (pos : 1 ≤ n) {rest : List Bool} (line : s.busyIn = List.replicate n level ++ rest) :
    ∃ u : State, u.st = s.st ∧ u.busyNext = level ∧ u.waitBound ≤ u.k + 1 ∧ fsmRun n s = fsmStep u ∧
      missedSample u = afterMissed n level rest s := by
  obtain ⟨m, rfl⟩ : ∃ m, n = m + 1 := ⟨n - 1, by omega⟩
  have split : s.busyIn = List.replicate m level ++ (level :: rest) := by
    rw [line, List.replicate_succ', List.append_assoc]; rfl
  refine ⟨afterMissed m level (level :: rest) s, rfl, rfl, ?_, ?_, ?_⟩
  · simp only [afterMissed]; change s.waitBound ≤ _; omega
  · rw [fsmRun_succ, fsmRun_missed wait wrong split (by omega)]
  · rw [missedSample_eq (level := level) (rest := rest) rfl, afterMissed_add]

/-- Settles O27: N missed samples, the last of which ends WAITRDY. -/
theorem waitrdyTimesOutAfterExactlyN : Obligations.WaitrdyTimesOutAfterExactlyN := by
  unfold Obligations.WaitrdyTimesOutAfterExactlyN
  intro s timeout n rest here start class_ hn line
  have bound : n = s.waitBound := by
    rw [State.waitBound, here, hn, ← timeoutUs_opTc class_]; rfl
  obtain ⟨u, st, low, last, run, missed⟩ := fsmRun_timeout (level := false) (by rw [here]; rfl) (by rw [here]; decide) start bound
    (by omega) line
  rw [run, fsmStep_gaveUp (st.trans here) low last, missed]
  simp [finish, afterMissed, start]

/-- Settles O28: m missed samples and one that ends WAITRDY. -/
theorem waitrdySucceedsAtTheFirstHighSample : Obligations.WaitrdySucceedsAtTheFirstHighSample := by
  unfold Obligations.WaitrdySucceedsAtTheFirstHighSample
  intro s timeout m rest here start class_ hm line
  have bound : m < s.waitBound := by
    rw [State.waitBound, here]
    rw [← timeoutUs_opTc class_] at hm
    exact hm
  rw [fsmRun_succ, fsmRun_missed (by rw [here]; rfl) (by rw [here]; decide) line (by omega), fsmStep_wWaitHigh (by exact here)]
  simp [stepWWaitHigh, pollStep, afterMissed, State.busyNext, sampleBusy, finish, start, Nat.add_assoc]

/-- Settles O29: N missed samples, the last of which releases chip-select, in each of the five waits. -/
theorem everyPhaseWaitIsBounded : Obligations.EveryPhaseWaitIsBounded := by
  unfold Obligations.EveryPhaseWaitIsBounded
  intro s timeout n level rest waits start hn line
  obtain ⟨wait, isOpen, wrong, bound, lasts⟩ : s.st.waiting = true ∧ s.st.phaseOpen = true ∧ level ≠ s.st.awaits ∧
      n = s.waitBound ∧ (1 ≤ s.params.pollUs → timeout ≤ n * s.params.pollUs) := by
    subst hn
    rcases waits with ⟨here, rfl, rfl⟩ | ⟨here, rfl, rfl⟩ | ⟨here, rfl, rfl⟩ | ⟨here, rfl, class_⟩ | ⟨here, rfl, rfl⟩
    case inr.inr.inr.inl =>
      rw [← timeoutUs_opTc class_, State.waitBound, here]
      exact ⟨rfl, rfl, by decide, rfl, timeout_le_pollBound s.opTc⟩
    all_goals
      rw [State.waitBound, here]
      exact ⟨rfl, rfl, by decide, rfl, timeout_le_pollBound .notx⟩
  refine ⟨?_, lasts⟩
  obtain ⟨u, st, level', last, run, missed⟩ := fsmRun_timeout wait wrong start bound (by omega) line
  rw [run, fsmStep_timeout (by rwa [st]) (by rwa [st]) (by rwa [st, level']) last, missed]
  simp [abortPhase, csRelease, finish, afterMissed, start]

/-! ### DELAY and ISRDY -/

/-- R175: before the last tick. -/
theorem fsmRun_ticks {s : State} (here : s.st = .dly) {j : Nat} (more : j < s.d) :
    fsmRun j s = { s with d := s.d - j, trace := s.trace ++ List.replicate j Event.tick } := by
  induction j generalizing s with
  | zero => simp [fsmRun]
  | succ j ih =>
    have ticks : fsmStep s = tick { s with d := s.d - 1 } := by
      rw [fsmStep_dly here, stepDly, if_neg (by omega)]
    rw [fsmRun, ticks, ih (by exact here) (by simp only [tick_fields]; omega)]
    simp only [tick, List.append_assoc, List.replicate_succ, List.singleton_append, Nat.sub_sub, Nat.add_comm 1 j]

/-- Settles O35: D(MS) - 1 ticks in DLY and a last one that ends the operation. -/
theorem delayTakesExactlyItsTicks : Obligations.DelayTakesExactlyItsTicks := by
  unfold Obligations.DelayTakesExactlyItsTicks
  rintro s ms n rfl pos
  have launched : exec (.delay ms) s = .next (goto .dly { s with d := delayTicks s.params ms }) := if_neg (by omega)
  refine ⟨_, launched, fun j hj => ?busy, ?ends⟩
  case busy => rw [fsmRun_ticks rfl hj]; rfl
  case ends =>
    generalize delayTicks s.params ms = n at pos
    obtain ⟨m, rfl⟩ : ∃ m, n = m + 1 := ⟨n - 1, by omega⟩
    rw [fsmRun_succ, fsmRun_ticks (j := m) rfl (Nat.lt_succ_self m), fsmStep_dly rfl]
    simp [stepDly, goto, tick, finish, List.replicate_succ']

/-- Settles O34: the launch goes to SMP, whose one step samples. -/
theorem isrdyReportsTheLine : Obligations.IsrdyReportsTheLine := by
  unfold Obligations.IsrdyReportsTheLine
  intro s
  refine ⟨goto .smp (setRdy false s), rfl, ?_⟩
  rw [fsmStep_smp rfl]
  rfl

/-! ### Single transfers -/

/-- Settles O32: in each of the three transfer states the error ends the phase before the byte is used. -/
theorem transferErrorEndsThePhase : Obligations.TransferErrorEndsThePhase := by
  unfold Obligations.TransferErrorEndsThePhase
  rintro s tx (⟨here, rfl⟩ | ⟨here, rfl⟩ | ⟨here, rfl⟩) err
  · rw [fsmStep_sXfer here]; simp [stepSXfer, err, abortPhase, finish, csRelease, spiXchg]
  · rw [fsmStep_rXferLen here]; simp [stepRXferLen, err, abortPhase, finish, csRelease, spiXchg]
  · rw [fsmStep_rXfer here]; simp [stepRXfer, err, abortPhase, finish, csRelease, spiXchg]

/-- R146: what the length byte leads to. -/
theorem fsmStep_rXferLen_eq {s : State} (here : s.st = .rXferLen) (fine : s.errNext = false) :
    fsmStep s =
      if s.rxNext.toNat = 0 ∨ s.cap < s.rxNext.toNat then abortPhase .acklen (takeLength s)
      else if s.rxNext.toNat = 1 then enterWait .rWaitDone (takeLength s)
      else goto .rXfer { takeLength s with i := 1 } := by
  rw [fsmStep_rXferLen here, stepRXferLen, fine]
  rfl

/-- R146: the byte is stored whatever its value. -/
theorem fsmStep_rXferLen_stores {s : State} (here : s.st = .rXferLen) (fine : s.errNext = false) :
    (fsmStep s).mem = Memory.writeBuf s.mem .rxf 0 s.rxNext ∧ (fsmStep s).lenByte = s.rxNext := by
  rw [fsmStep_rXferLen_eq here fine]
  split_ifs <;> simp

/-- Settles O33: the byte is stored before it is looked at, and each of its values leads to one of the three ends. -/
theorem lengthByteIsChecked : Obligations.LengthByteIsChecked := by
  unfold Obligations.LengthByteIsChecked
  intro s here fine
  obtain ⟨mem, lenByte⟩ := fsmStep_rXferLen_stores here fine
  refine ⟨?rxf, lenByte, fun x hx => ?frame, fun bad => ?badLength, fun one cap => ?oneByte, fun two fits => ?moreBytes⟩
  case rxf => rw [State.rxf, mem]; exact Memory.readBuf_writeBuf_same s.mem s.rxNext (by decide)
  case frame => rw [mem, Memory.read_writeBuf, if_neg (fun h => hx h.1)]
  case badLength =>
    rw [fsmStep_rXferLen_eq here fine, if_pos bad]
    simp
  case oneByte =>
    rw [fsmStep_rXferLen_eq here fine, if_neg (by omega), if_pos one]
    simp
  case moreBytes =>
    rw [fsmStep_rXferLen_eq here fine, if_neg (by omega), if_neg (by omega)]
    simp

end Sys2Proof.Machine

/-! # 41_transport.md and 42_command_engine.md: whole phases

A phase whose chip keeps to the protocol runs through its states one after the other. The transfers in the middle are said by the number
of bytes already exchanged. -/
namespace Sys2Proof.Machine

/-! ### The parse step -/

/-- R183: a parse step whose length is in range. -/
theorem parseStep_of_inRange {s : State} (long : 3 ≤ (s.rxf 0).toNat) (fits : (s.rxf 0).toNat ≤ s.cap) :
    parseStep s = finish (replyResult s) (flagAnomaly (acceptReply s)) :=
  parseStep_of_accepts long (by omega)

/-- R183: a parse step whose length is out of range. -/
theorem parseStep_of_outOfRange {s : State} (cap : 3 ≤ s.cap) (bad : (s.rxf 0).toNat < 3 ∨ s.cap < (s.rxf 0).toNat) :
    parseStep s = finish .acklen s :=
  parseStep_of_rejected ((parseAck_eq_none _ s).mpr (by omega))

/-- R184: the anomaly check writes ANOMALY only. -/
theorem flagAnomaly_eq (s : State) : flagAnomaly s = { s with anomaly := (flagAnomaly s).anomaly } := by
  unfold flagAnomaly
  split_ifs <;> rfl

/-- Settles O36: the two ends of the parse step. -/
theorem parseStepUpdatesDriverState : Obligations.ParseStepUpdatesDriverState := by
  unfold Obligations.ParseStepUpdatesDriverState
  intro s cap3 cap26
  refine ⟨fun bad => parseStep_of_outOfRange cap3 bad, fun long fits => ⟨_, parseStep_of_inRange long fits, ?_⟩⟩
  rw [flagAnomaly_eq]
  refine ⟨rfl, rfl, rfl, rfl, aplen_add_three long (by omega), fun j hj => ?payload, fun x hx => ?frame⟩
  case payload => exact storeApay_apay s.mem _ (by omega) hj
  case frame => exact storeApay_read s.mem _ _ hx

/-! ### Exchanges -/

/-- The byte that the chip answers in the j-th exchange. -/
abbrev replyByte (xs : List (Byte × Bool)) (j : Nat) : Byte := (xs.getD j (0#8, false)).1

/-- R23: the next exchange of a chip that has `xs` to answer without error, `j` of them already answered. -/
theorem nextExchange {s : State} {xs rest : List (Byte × Bool)} {j : Nat} (left : s.xchgIn = (xs ++ rest).drop j) (hj : j < xs.length)
    (fine : ∀ x ∈ xs, x.2 = false) : s.rxNext = replyByte xs j ∧ s.errNext = false := by
  have inAll : j < (xs ++ rest).length := by rw [List.length_append]; omega
  have head : s.xchgIn = xs[j] :: (xs ++ rest).drop (j + 1) := by
    rw [left, List.drop_eq_getElem_cons inAll, List.getElem_append_left hj]
  have noError : xs[j].2 = false := fine _ (List.getElem_mem hj)
  simp [State.rxNext, State.errNext, head, noError, replyByte, hj]

/-- The events of `n` exchanges, byte `tx j` sent in the j-th. -/
def exchanges (tx : Nat → Byte) (xs : List (Byte × Bool)) (n : Nat) : List Event :=
  (List.range n).map fun j => Event.xfer (tx j) (replyByte xs j)

theorem exchanges_succ (tx : Nat → Byte) (xs : List (Byte × Bool)) (n : Nat) :
    exchanges tx xs (n + 1) = exchanges tx xs n ++ [Event.xfer (tx n) (replyByte xs n)] := by
  simp [exchanges, List.range_succ]

theorem exchanges_length (tx : Byte) (xs : List (Byte × Bool)) :
    exchanges (fun _ => tx) xs xs.length = xs.map fun x => Event.xfer tx x.1 := by
  apply List.ext_getElem <;> simp +contextual [exchanges, replyByte]

/-! ### The send phase -/

/-- The state of S_XFER once `j` bytes of the frame are shifted out (41_transport.md R144). -/
def afterShifts (j : Nat) (xs rest : List (Byte × Bool)) (s : State) : State :=
  { s with i := j, xchgIn := (xs ++ rest).drop j, draws := s.draws + j, trace := s.trace ++ exchanges s.txf xs j }

section
variable {s : State} {xs rest : List (Byte × Bool)} (fine : ∀ x ∈ xs, x.2 = false)
include fine

theorem shiftByte_afterShifts {j : Nat} (hj : j < xs.length) :
    shiftByte (afterShifts j xs rest s) = afterShifts (j + 1) xs rest s := by
  obtain ⟨rx, _⟩ := nextExchange (s := afterShifts j xs rest s) rfl hj fine
  rw [shiftByte, spiXchg, rx]
  simp [afterShifts, exchanges_succ, Nat.add_assoc]

/-- R144: before the last byte the block stays in S_XFER. -/
theorem fsmRun_shifts (here : s.st = .sXfer) (start : s.i = 0) (left : s.xchgIn = xs ++ rest) (len : xs.length = s.len) {j : Nat}
    (hj : j < s.len) : fsmRun j s = afterShifts j xs rest s := by
  induction j with
  | zero => cases s; simp_all [fsmRun, afterShifts, exchanges]
  | succ j ih =>
    obtain ⟨_, noError⟩ := nextExchange (s := afterShifts j xs rest s) rfl (by omega) fine
    have more : (afterShifts j xs rest s).i + 1 ≠ (afterShifts j xs rest s).len := by simp only [afterShifts]; omega
    rw [fsmRun_succ, ih (by omega), fsmStep_sXfer (by exact here), stepSXfer, noError, if_neg (by simp), if_neg more]
    exact shiftByte_afterShifts fine (by omega)

/-- R144: the last byte of the frame. -/
theorem fsmRun_frame (here : s.st = .sXfer) (start : s.i = 0) (left : s.xchgIn = xs ++ rest) (len : xs.length = s.len)
    (pos : 1 ≤ s.len) : fsmRun s.len s = enterWait .sWaitDone (afterShifts s.len xs rest s) := by
  obtain ⟨m, hm⟩ : ∃ m, s.len = m + 1 := ⟨s.len - 1, by omega⟩
  obtain ⟨_, noError⟩ := nextExchange (s := afterShifts m xs rest s) rfl (by omega) fine
  have last : (afterShifts m xs rest s).i + 1 = (afterShifts m xs rest s).len := hm.symm
  rw [hm, fsmRun_succ, fsmRun_shifts fine here start left len (by omega), fsmStep_sXfer (by exact here), stepSXfer, noError,
    if_neg (by simp), if_pos last]
  exact congrArg (enterWait .sWaitDone) (shiftByte_afterShifts fine (by omega))

end

/-- The state in which a send phase continues once it is over (41_transport.md R144; 42_command_engine.md R181). -/
def afterSend (xs : List (Byte × Bool)) (busyRest : List Bool) (xchgRest : List (Byte × Bool)) (s : State) : State :=
  { s with
    st := .sWaitDone, csN := true, k := 0, i := s.len, busyIn := busyRest, xchgIn := xchgRest, draws := s.draws + (s.len + 3),
    trace := s.trace ++ [Event.sample true, Event.select, Event.sample false] ++ exchanges s.txf xs s.len
      ++ [Event.sample true, Event.deselect] }

/-- The state of S_XFER before the first byte, the frame accepted (41_transport.md R144). -/
def beforeFrame (line : List Bool) (s : State) : State :=
  { s with
    st := .sXfer, csN := false, k := 0, i := 0, busyIn := line, draws := s.draws + 2,
    trace := s.trace ++ [Event.sample true, Event.select, Event.sample false] }

/-- R144: the chip is idle and takes the frame. -/
theorem fsmRun_beforeFrame {s : State} {line : List Bool} (here : s.st = .sWaitIdle) (levels : s.busyIn = true :: false :: line) :
    fsmRun 2 s = beforeFrame line s := by
  have selected : fsmStep s = enterWait .sWaitAccept (csAssert (sampleBusy s)) := by
    rw [fsmStep_sWaitIdle here]; exact if_pos (by simp [State.busyNext, levels])
  have accepted : fsmStep (enterWait .sWaitAccept (csAssert (sampleBusy s))) =
      goto .sXfer { sampleBusy (enterWait .sWaitAccept (csAssert (sampleBusy s))) with i := 0 } := by
    rw [fsmStep_sWaitAccept (by simp)]; exact if_pos (by simp [State.busyNext, levels])
  rw [fsmRun, fsmRun, fsmRun, selected, accepted]
  simp [beforeFrame, enterWait, csAssert, sampleBusy, goto, State.busyNext, levels]

/-- R144: a send phase whose line shows high, low, high and whose exchanges report no error. -/
theorem fsmRun_sendPhase {s : State} {xs xchgRest : List (Byte × Bool)} {busyRest : List Bool} (here : s.st = .sWaitIdle)
    (pos : 1 ≤ s.len) (len : xs.length = s.len) (fine : ∀ x ∈ xs, x.2 = false) (line : s.busyIn = true :: false :: true :: busyRest)
    (left : s.xchgIn = xs ++ xchgRest) : fsmRun (s.len + 3) s = sendDone (afterSend xs busyRest xchgRest s) := by
  have framed : fsmRun s.len (beforeFrame (true :: busyRest) s) =
      enterWait .sWaitDone (afterShifts s.len xs xchgRest (beforeFrame (true :: busyRest) s)) :=
    fsmRun_frame (s := beforeFrame (true :: busyRest) s) fine rfl rfl left len pos
  have allShifted : (xs ++ xchgRest).drop s.len = xchgRest := by rw [← len, List.drop_left]
  rw [show s.len + 3 = 2 + s.len + 1 by omega, fsmRun_succ, fsmRun_add, fsmRun_beforeFrame here line, framed, fsmStep_sWaitDone (by simp),
    stepSWaitDone, pollStep, if_pos (by simp [State.busyNext, afterShifts, beforeFrame])]
  refine congrArg sendDone ?_
  simp [csRelease, sampleBusy, enterWait, afterShifts, beforeFrame, afterSend, State.busyNext, allShifted, exchanges]
  omega

/-- Settles O30: SEND, SENDNB and XACT without an acknowledgement end where the send phase ends. -/
theorem sendPhaseShiftsTheFrame : Obligations.SendPhaseShiftsTheFrame := by
  unfold Obligations.SendPhaseShiftsTheFrame
  intro s xs busyRest xchgRest here _ op pos len fine line left
  have noReply : (s.isXact && !s.opNa) = false := by
    rcases op with op | op | ⟨op, na⟩
    · simp [State.isXact, op]
    · simp [State.isXact, op]
    · simp [na]
  have ends : sendDone (afterSend xs busyRest xchgRest s) = finish .ok (afterSend xs busyRest xchgRest s) :=
    if_neg (by simpa [State.isXact, State.opCode, State.opNa, afterSend] using noReply)
  rw [fsmRun_sendPhase here pos len fine line left, ends]
  rfl

/-! ### The receive phase -/

/-- The state of R_XFER once `j` bytes of the reply are stored (41_transport.md R146). -/
def afterStores (j : Nat) (xs rest : List (Byte × Bool)) (s : State) : State :=
  { s with
    st := .rXfer, i := j, lenByte := replyByte xs 0, mem := Memory.storeBytes s.mem .rxf 0 (replyByte xs) j,
    xchgIn := (xs ++ rest).drop j, draws := s.draws + j, trace := s.trace ++ exchanges (fun _ => 0xFF#8) xs j }

section
variable {s : State} {xs rest : List (Byte × Bool)} (fine : ∀ x ∈ xs, x.2 = false)
include fine

theorem takeByte_afterStores {j : Nat} (hj : j < xs.length) :
    takeByte (afterStores j xs rest s) = afterStores (j + 1) xs rest s := by
  obtain ⟨rx, _⟩ := nextExchange (s := afterStores j xs rest s) rfl hj fine
  rw [takeByte, setRxf, spiXchg, rx]
  simp [afterStores, exchanges_succ, Memory.storeBytes, Nat.add_assoc]

/-- R146: the length byte. -/
theorem takeLength_eq (left : s.xchgIn = xs ++ rest) (pos : 1 ≤ xs.length) :
    takeLength s = { afterStores 1 xs rest s with st := s.st, i := s.i } := by
  obtain ⟨rx, _⟩ := nextExchange (s := s) (j := 0) left (by omega) fine
  rw [takeLength, setRxf, spiXchg, rx]
  simp [afterStores, exchanges, Memory.storeBytes, left]

/-- R146: before the last byte the block stays in R_XFER. -/
theorem fsmRun_stores (here : s.st = .rXferLen) (left : s.xchgIn = xs ++ rest) (len : (replyByte xs 0).toNat = xs.length)
    (cap : xs.length ≤ s.cap) {j : Nat} (pos : 1 ≤ j) (hj : j < xs.length) : fsmRun j s = afterStores j xs rest s := by
  induction j, pos using Nat.le_induction with
  | base =>
    obtain ⟨rx, noError⟩ := nextExchange (s := s) (j := 0) left (by omega) fine
    change fsmStep s = _
    rw [fsmStep_rXferLen_eq here noError, rx, if_neg (by omega), if_neg (by omega), takeLength_eq fine left (by omega)]
    rfl
  | succ j pos ih =>
    obtain ⟨_, noError⟩ := nextExchange (s := afterStores j xs rest s) rfl (by omega) fine
    have more : (afterStores j xs rest s).i + 1 ≠ (afterStores j xs rest s).lenByte.toNat := by simp only [afterStores, len]; omega
    rw [fsmRun_succ, ih (by omega), fsmStep_rXfer rfl, stepRXfer, noError, if_neg (by simp), if_neg more]
    exact takeByte_afterStores fine (by omega)

/-- R146: the last byte of the reply, which is the length byte of a reply of one byte. -/
theorem fsmRun_reply (here : s.st = .rXferLen) (left : s.xchgIn = xs ++ rest) (len : (replyByte xs 0).toNat = xs.length)
    (cap : xs.length ≤ s.cap) (pos : 1 ≤ xs.length) :
    ∃ i, fsmRun xs.length s = enterWait .rWaitDone { afterStores xs.length xs rest s with i := i } := by
  rcases Nat.lt_or_eq_of_le pos with more | one
  · obtain ⟨m, hm⟩ : ∃ m, xs.length = m + 1 := ⟨xs.length - 1, by omega⟩
    obtain ⟨_, noError⟩ := nextExchange (s := afterStores m xs rest s) rfl (by omega) fine
    have last : (afterStores m xs rest s).i + 1 = (afterStores m xs rest s).lenByte.toNat := by simp only [afterStores, len, hm]
    refine ⟨xs.length, ?_⟩
    rw [hm, fsmRun_succ, fsmRun_stores fine here left len cap (by omega) (by omega), fsmStep_rXfer rfl, stepRXfer, noError,
      if_neg (by simp), if_pos last]
    exact congrArg (enterWait .rWaitDone) (takeByte_afterStores fine (by omega))
  · obtain ⟨rx, noError⟩ := nextExchange (s := s) (j := 0) left (by omega) fine
    refine ⟨s.i, ?_⟩
    rw [← one]
    change fsmStep s = _
    rw [fsmStep_rXferLen_eq here noError, rx, if_neg (by omega), if_pos (by omega), takeLength_eq fine left (by omega)]
    rfl

end

/-- The state in which a receive phase continues once it is over (41_transport.md R146). -/
def afterReceive (i : Nat) (xs : List (Byte × Bool)) (busyRest : List Bool) (xchgRest : List (Byte × Bool)) (s : State) : State :=
  { s with
    st := .rWaitDone, csN := true, k := 0, i := i, lenByte := replyByte xs 0,
    mem := Memory.storeBytes s.mem .rxf 0 (replyByte xs) xs.length, busyIn := busyRest, xchgIn := xchgRest,
    draws := s.draws + (xs.length + 2),
    trace := s.trace ++ [Event.sample false, Event.select] ++ xs.map (fun x => Event.xfer 0xFF#8 x.1)
      ++ [Event.sample true, Event.deselect] }

/-- R146: a receive phase whose line shows low, then high, and whose chip answers a reply of its own length. -/
theorem fsmRun_receivePhase {s : State} {xs xchgRest : List (Byte × Bool)} {busyRest : List Bool} (here : s.st = .rWaitReady)
    (pos : 1 ≤ xs.length) (cap : xs.length ≤ s.cap) (len : (replyByte xs 0).toNat = xs.length) (fine : ∀ x ∈ xs, x.2 = false)
    (line : s.busyIn = false :: true :: busyRest) (left : s.xchgIn = xs ++ xchgRest) :
    ∃ i, fsmRun (xs.length + 2) s = recvDone (afterReceive i xs busyRest xchgRest s) := by
  have ready : fsmStep s = goto .rXferLen (csAssert (sampleBusy s)) := by
    rw [fsmStep_rWaitReady here]; exact if_pos (by simp [State.busyNext, line])
  obtain ⟨i, replied⟩ := fsmRun_reply (s := goto .rXferLen (csAssert (sampleBusy s))) fine rfl left len cap pos
  have allStored : (xs ++ xchgRest).drop xs.length = xchgRest := List.drop_left
  refine ⟨i, ?_⟩
  rw [show xs.length + 2 = 1 + xs.length + 1 by omega, fsmRun_succ, fsmRun_add, fsmRun, fsmRun, ready, replied,
    fsmStep_rWaitDone (by simp), stepRWaitDone, pollStep, if_pos (by simp [State.busyNext, afterStores, line])]
  refine congrArg recvDone ?_
  simp [csRelease, sampleBusy, enterWait, goto, csAssert, afterStores, afterReceive, State.busyNext, line, allStored, exchanges_length]
  omega

section
variable (i : Nat) (xs : List (Byte × Bool)) (busyRest : List Bool) (xchgRest : List (Byte × Bool)) (s : State)

/-- R146: the reply stands in RXF. -/
theorem afterReceive_rxf (fits : xs.length ≤ 26) {j : Nat} (hj : j < xs.length) :
    (afterReceive i xs busyRest xchgRest s).rxf j = replyByte xs j := by
  change Memory.readBuf (Memory.storeBytes s.mem .rxf 0 (replyByte xs) xs.length) .rxf j = _
  rw [Memory.readBuf_storeBytes, if_pos ⟨rfl, by omega, by omega, by simp only [Buf.size]; omega⟩, Nat.sub_zero]

/-- R146: a receive phase stores nothing but the reply. -/
theorem afterReceive_read {x : Nat} (hx : ¬ (0x70 ≤ x ∧ x < 0x70 + xs.length)) :
    Memory.read (afterReceive i xs busyRest xchgRest s).mem x = Memory.read s.mem x := by
  change Memory.read (Memory.storeBytes s.mem .rxf 0 (replyByte xs) xs.length) x = _
  rw [Memory.read_storeBytes, if_neg (by simp only [Buf.base]; omega)]

end

/-- Settles O31: RECV ends where the receive phase ends. -/
theorem receivePhaseStoresTheReply : Obligations.ReceivePhaseStoresTheReply := by
  unfold Obligations.ReceivePhaseStoresTheReply
  intro s xs busyRest xchgRest here start op cap26 pos cap len fine line left
  obtain ⟨i, run⟩ := fsmRun_receivePhase here pos cap len fine line left
  have ends : recvDone (afterReceive i xs busyRest xchgRest s) = finish .ok (afterReceive i xs busyRest xchgRest s) :=
    if_neg (by
      have notParse : s.parsesAck = false := by rw [State.parsesAck, op]; rfl
      simpa [State.parsesAck, State.opCode, afterReceive] using notParse)
  refine ⟨_, run.trans ends, ?fields, fun j hj => ?reply, fun x hx => ?frame⟩
  case fields => simp [finish, afterReceive, start, replyByte]
  case reply => exact afterReceive_rxf i xs busyRest xchgRest s (by omega) hj
  case frame => exact afterReceive_read i xs busyRest xchgRest s hx

/-! ### The parse of a whole reply -/

/-- R183: XACT and READACK end their receive phase with the parse step. -/
theorem recvDone_of_parses {s : State} (op : s.opCode = 0x8#4 ∨ s.opCode = 0xA#4) : recvDone s = parseStep s :=
  if_pos (by simpa [State.parsesAck] using op)

/-- R183: what the parse step of a whole reply of at least 3 bytes leaves. -/
def afterReply (xs : List (Byte × Bool)) (s : State) : State :=
  { s with
    st := .idle, done := true, result := if replyByte xs 1 = 0#8 then .ok else .ackerr
    drvstate := ⟨true, replyByte xs 1, replyByte xs 2⟩
    ackinfo := ⟨BitVec.ofNat 5 (xs.length - 3), replyByte xs 2, replyByte xs 1, replyByte xs 0⟩
    mem := Memory.storeBytes s.mem .apay 0 (fun j => s.rxf (3 + j)) (xs.length - 3)
    anomaly := s.anomaly || (s.isXact && decide (xs.length ≠ 3 + s.opApl)) }

/-- R183: the parse step of a whole reply of at least 3 bytes. -/
theorem parseStep_of_reply {s : State} {xs : List (Byte × Bool)} (len : (replyByte xs 0).toNat = xs.length) (long : 3 ≤ xs.length)
    (cap : xs.length ≤ s.cap) (stored : ∀ j, j < xs.length → s.rxf j = replyByte xs j) : parseStep s = afterReply xs s := by
  have rxf0 : s.rxf 0 = replyByte xs 0 := stored 0 (by omega)
  have rxf1 : s.rxf 1 = replyByte xs 1 := stored 1 (by omega)
  have rxf2 : s.rxf 2 = replyByte xs 2 := stored 2 (by omega)
  have lenByte : (s.rxf 0).toNat = xs.length := by rw [rxf0, len]
  have kept : (acceptReply s).rxf 0 = s.rxf 0 := storeApay_rxf ..
  have anomaly : (flagAnomaly (acceptReply s)).anomaly = (s.anomaly || (s.isXact && decide (xs.length ≠ 3 + s.opApl))) := by
    simp only [flagAnomaly_fields, kept, lenByte]
    rfl
  rw [parseStep_of_inRange (by omega) (by omega), flagAnomaly_eq, anomaly, replyResult, acceptReply, rxf0, rxf1, rxf2, len]
  rfl

/-- Settles O60: the receive phase, then the parse step of READACK, which does no anomaly check. -/
theorem readackReceivesAndParses : Obligations.ReadackReceivesAndParses := by
  unfold Obligations.ReadackReceivesAndParses
  intro s xs busyRest xchgRest here start op cap3 cap26 pos cap len fine line left
  obtain ⟨i, run⟩ := fsmRun_receivePhase here pos cap len fine line left
  have rxf := fun j hj => afterReceive_rxf i xs busyRest xchgRest s (by omega) (j := j) hj
  have read := fun x hx => afterReceive_read i xs busyRest xchgRest s (x := x) hx
  rw [recvDone_of_parses (s := afterReceive i xs busyRest xchgRest s) (.inr op)] at run
  rcases Nat.lt_or_ge xs.length 3 with short | long
  · have lenByte : ((afterReceive i xs busyRest xchgRest s).rxf 0).toNat < 3 := by rw [rxf 0 (by omega), len]; exact short
    rw [parseStep_of_outOfRange (s := afterReceive i xs busyRest xchgRest s) cap3 (.inl lenByte)] at run
    refine ⟨_, run, ?fields, rxf, fun _ => ⟨rfl, rfl, rfl, read⟩, fun long => by omega⟩
    case fields => simp [finish, afterReceive, start, replyByte]
  · have noXact : (afterReceive i xs busyRest xchgRest s).isXact = false := by
      have notXact : s.opCode ≠ 0x8#4 := by rw [op]; decide
      simpa [State.isXact, State.opCode, afterReceive] using notXact
    rw [parseStep_of_reply (s := afterReceive i xs busyRest xchgRest s) len long cap rxf] at run
    refine ⟨_, run, ?fields, fun j hj => ?reply, fun short => by omega,
      fun _ => ⟨rfl, rfl, rfl, fun j hj => ?payload, fun x hr ha => ?frame⟩⟩
    case fields =>
      simp only [afterReply, noXact, Bool.false_and, Bool.or_false]
      simp [afterReceive, start, replyByte]
    case reply => exact (storeApay_rxf ..).trans (rxf j hj)
    case payload => exact (storeApay_apay _ _ (by omega) hj).trans (rxf (3 + j) (by omega))
    case frame => exact (storeApay_read _ _ _ ha).trans (read x hr)

end Sys2Proof.Machine

/-! # Runs of the FSM -/
namespace Sys2Proof.Machine

/-! ### The host's side of a run -/

/-- The state with the host's side replaced: the moves still to do, and the responses given (log 4). -/
def withHost (ms : List Move) (rs : List HostResp) (s : State) : State := { s with agenda := ms, resps := rs }

section
variable (ms : List Move) (rs : List HostResp) (s : State)

theorem pollStep_withHost (target : Bool) (n : Nat) (onOK onTimeout : State → State)
    (ok : ∀ t, onOK (withHost ms rs t) = withHost ms rs (onOK t))
    (late : ∀ t, onTimeout (withHost ms rs t) = withHost ms rs (onTimeout t)) :
    pollStep target n onOK onTimeout (withHost ms rs s) = withHost ms rs (pollStep target n onOK onTimeout s) := by
  unfold pollStep
  dsimp only
  rw [apply_ite (withHost ms rs), apply_ite (withHost ms rs), ← ok, ← late]
  rfl

theorem sendDone_withHost : sendDone (withHost ms rs s) = withHost ms rs (sendDone s) := by
  rw [sendDone, sendDone, apply_ite (withHost ms rs)]
  rfl

theorem parseStep_withHost : parseStep (withHost ms rs s) = withHost ms rs (parseStep s) := by
  by_cases bad : (s.rxf 0).toNat < 3 ∨ s.cap - 3 < (s.rxf 0).toNat - 3
  · rw [parseStep_of_rejected ((parseAck_eq_none _ s).mpr bad),
      parseStep_of_rejected (s := withHost ms rs s) ((parseAck_eq_none _ _).mpr bad)]
    rfl
  · obtain ⟨long, fits⟩ := not_or.mp bad
    rw [parseStep_of_accepts (s := s) (by omega) (by omega),
      parseStep_of_accepts (s := withHost ms rs s) (Nat.not_lt.mp long) (Nat.not_lt.mp fits), flagAnomaly, flagAnomaly,
      apply_ite (finish _), apply_ite (finish _), apply_ite (withHost ms rs)]
    rfl

theorem recvDone_withHost : recvDone (withHost ms rs s) = withHost ms rs (recvDone s) := by
  rw [recvDone, recvDone, apply_ite (withHost ms rs), ← parseStep_withHost]
  rfl

/-- R76, R80: no FSM step reads or writes the host's side. -/
theorem fsmStep_withHost : fsmStep (withHost ms rs s) = withHost ms rs (fsmStep s) := by
  have st : (withHost ms rs s).st = s.st := rfl
  cases here : s.st with
  | idle => rw [fsmStep_idle here, fsmStep_idle (st.trans here)]
  | fault => rw [fsmStep_fault here, fsmStep_fault (st.trans here)]
  | sWaitIdle =>
    rw [fsmStep_sWaitIdle here, fsmStep_sWaitIdle (st.trans here)]
    exact pollStep_withHost ms rs s _ _ _ _ (fun _ => rfl) fun _ => rfl
  | sWaitAccept =>
    rw [fsmStep_sWaitAccept here, fsmStep_sWaitAccept (st.trans here)]
    exact pollStep_withHost ms rs s _ _ _ _ (fun _ => rfl) fun _ => rfl
  | sWaitDone =>
    rw [fsmStep_sWaitDone here, fsmStep_sWaitDone (st.trans here)]
    exact pollStep_withHost ms rs s _ _ _ _ (fun t => sendDone_withHost ms rs (csRelease t)) fun _ => rfl
  | rWaitReady =>
    rw [fsmStep_rWaitReady here, fsmStep_rWaitReady (st.trans here)]
    exact pollStep_withHost ms rs s _ _ _ _ (fun _ => rfl) fun _ => rfl
  | rWaitDone =>
    rw [fsmStep_rWaitDone here, fsmStep_rWaitDone (st.trans here)]
    exact pollStep_withHost ms rs s _ _ _ _ (fun t => recvDone_withHost ms rs (csRelease t)) fun _ => rfl
  | wWaitHigh =>
    rw [fsmStep_wWaitHigh here, fsmStep_wWaitHigh (st.trans here)]
    exact pollStep_withHost ms rs s _ _ _ _ (fun _ => rfl) fun _ => rfl
  | sXfer =>
    rw [fsmStep_sXfer here, fsmStep_sXfer (st.trans here), stepSXfer, stepSXfer, apply_ite (withHost ms rs), apply_ite (withHost ms rs)]
    rfl
  | rXferLen =>
    rw [fsmStep_rXferLen here, fsmStep_rXferLen (st.trans here), stepRXferLen, stepRXferLen]
    dsimp only
    rw [apply_ite (withHost ms rs), apply_ite (withHost ms rs), apply_ite (withHost ms rs)]
    rfl
  | rXfer =>
    rw [fsmStep_rXfer here, fsmStep_rXfer (st.trans here), stepRXfer, stepRXfer]
    dsimp only
    rw [apply_ite (withHost ms rs), apply_ite (withHost ms rs)]
    rfl
  | dly =>
    rw [fsmStep_dly here, fsmStep_dly (st.trans here), stepDly, stepDly, apply_ite (withHost ms rs)]
    rfl
  | smp => rw [fsmStep_smp here, fsmStep_smp (st.trans here)]; rfl

theorem fsmRun_withHost (n : Nat) : fsmRun n (withHost ms rs s) = withHost ms rs (fsmRun n s) := by
  induction n generalizing s with
  | zero => rfl
  | succ n ih => rw [fsmRun, fsmRun, fsmStep_withHost, ih]

end

/-- R80: an FSM step from the agenda. -/
theorem step_fsm {s : State} {rest : List Move} (head : s.agenda = .fsm :: rest) :
    step s = .next (withHost rest s.resps (fsmStep s)) := by
  rw [step, head, ← fsmStep_withHost]
  rfl

/-- A run goes on where a step that answers a next state has come to. -/
theorem run_of_next {M : Host.Core} {s t : M.State} (n : Nat) (h : M.step s = .next t) : M.run (n + 1) s = M.run n t := by
  rw [Host.Core.run, h]

/-- Settles O44, by induction on the interleaving: a read answers and changes nothing else, and an FSM step does not see the host's side. -/
theorem readsNeverDisturbTheFsm : Obligations.ReadsNeverDisturbTheFsm := by
  unfold Obligations.ReadsNeverDisturbTheFsm
  intro ms rest
  induction ms with
  | nil =>
    intro s _ agenda
    refine ⟨[], rfl, ?_⟩
    have same : s = { s with agenda := rest } := by rw [← show s.agenda = rest from agenda]
    rw [List.append_nil]
    exact congrArg Host.Outcome.next same
  | cons m ms ih =>
    intro s hms agenda
    have tail : ∀ x ∈ ms, x = .fsm ∨ ∃ addr, x = .host (.read addr) := fun x hx => hms x (List.mem_cons_of_mem m hx)
    rcases hms m List.mem_cons_self with rfl | ⟨addr, rfl⟩
    · obtain ⟨rs, len, run⟩ := ih (withHost (ms ++ rest) s.resps (fsmStep s)) tail rfl
      rw [fsmRun_withHost] at run
      refine ⟨rs, by simp only [List.count_cons_self, List.length_cons]; omega, ?_⟩
      rw [List.length_cons, run_of_next (M := core) _ (step_fsm agenda), List.count_cons_self]
      exact run
    · obtain ⟨rs, len, run⟩ := ih (withHost (ms ++ rest) (s.resps ++ [hostReadResp addr s]) s) tail rfl
      have others : (Move.host (.read addr) :: ms).count .fsm = ms.count .fsm := List.count_cons_of_ne (by simp)
      rw [fsmRun_withHost] at run
      refine ⟨hostReadResp addr s :: rs, by simp only [others, List.length_cons]; omega, ?_⟩
      rw [List.length_cons, run_of_next (M := core) _ (step_hostRead agenda), others, List.append_cons s.resps (hostReadResp addr s) rs]
      exact run

/-! ### Every run ends -/

/-- The most FSM steps a receive phase takes once the send phase of an XACT that expects an acknowledgement is over (42_command_engine.md
R181). -/
def State.replyLeft (s : State) : Nat :=
  if s.isXact && !s.opNa then pollBound s.params s.opTc + s.nNotx + 26 else 0

/-- The most FSM steps that the operation in flight still takes (41_transport.md R159). -/
def State.stepsLeft (s : State) : Nat :=
  match s.st with
  | .idle | .fault => 0
  | .sWaitIdle => s.nNotx - s.k + (s.nNotx + s.len + s.nNotx) + s.replyLeft
  | .sWaitAccept => s.nNotx - s.k + (s.len + s.nNotx) + s.replyLeft
  | .sXfer => s.len - s.i + s.nNotx + s.replyLeft
  | .sWaitDone => s.nNotx - s.k + s.replyLeft
  | .rWaitReady => pollBound s.params s.opTc - s.k + s.nNotx + 26
  | .rXferLen => s.nNotx + 26
  | .rXfer => s.lenByte.toNat - s.i + s.nNotx
  | .rWaitDone => s.nNotx - s.k
  | .wWaitHigh => pollBound s.params s.opTc - s.k
  | .dly => s.d
  | .smp => 1

/-- R159: the receive phase of an XACT depends on the parameters and the latched word only. -/
theorem replyLeft_frame {s t : State} (params : t.params = s.params) (op : t.op = s.op) : t.replyLeft = s.replyLeft := by
  simp only [State.replyLeft, State.isXact, State.opCode, State.opNa, State.opTc, State.nNotx, params, op]
  rfl

/-- R45: the length of a reply fits the capacity, and the capacity is at most 26. -/
theorem cap_le_of_recvOp {s : State} (h : s.recvOp = true) : s.cap ≤ 26 := by
  simp only [State.recvOp, State.capFrom, Bool.or_eq_true, Bool.and_eq_true, decide_eq_true_eq] at h
  omega

/-- R159: a missed sample uses up one of the samples left. -/
theorem stepsLeft_missedSample {s : State} (wait : s.st.waiting = true) (more : s.k + 1 < s.waitBound) :
    (missedSample s).stepsLeft < s.stepsLeft := by
  have reply : (missedSample s).replyLeft = s.replyLeft := replyLeft_frame (by simp) (by simp)
  unfold State.waitBound at more
  unfold State.stepsLeft
  rw [reply]
  simp only [State.nNotx, State.opTc, missedSample_fields] at more ⊢
  cases here : s.st <;> simp only [here, FsmState.waiting, Bool.false_eq_true] at wait more ⊢ <;> omega

/-- R45: a busy block has something left to do. -/
theorem stepsLeft_pos {s : State} (bounds : s.InBounds) (busy : s.st.busy = true) : 0 < s.stepsLeft := by
  unfold State.InBounds at bounds
  unfold State.stepsLeft
  cases here : s.st <;> simp only [here, FsmState.busy, Bool.false_eq_true] at busy bounds ⊢ <;> omega

/-- R159: an FSM step of a busy block leaves less to do. -/
theorem FsmMove.stepsLeft {s t : State} (m : FsmMove s t) (bounds : s.InBounds) (busy : s.st.busy = true) :
    t.stepsLeft < s.stepsLeft := by
  have positive := stepsLeft_pos bounds busy
  have reply : t.params = s.params → t.op = s.op → t.replyLeft = s.replyLeft := replyLeft_frame
  cases m with
  | rest still => rcases still with still | still <;> simp [still, FsmState.busy] at busy
  | missed wait _ more => exact stepsLeft_missedSample wait more
  | timeout | busError | sent | badLength | received | rejected | parsed | waited | gaveUp | tickedLast | sampled =>
    simpa [State.stepsLeft] using positive
  | selected here | accepted here | shifted here | shiftedLast here | ready here | stored here | storedLast here =>
    simp [State.stepsLeft, State.InBounds, State.nNotx, here] at bounds reply ⊢
    omega
  | oneByte here => simp [State.stepsLeft, State.nNotx, here]
  | ticked here => simpa [State.stepsLeft, here] using positive
  | turned here _ expects =>
    simp [State.stepsLeft, State.InBounds, State.nNotx, State.opTc, State.replyLeft, expects, here] at bounds ⊢
    omega
  | moreBytes here _ _ fits =>
    have cap := cap_le_of_recvOp (s := s) (by simpa [State.InBounds, here] using bounds)
    simp [State.stepsLeft, State.nNotx, here]
    omega

/-- R159: so many steps end the operation in flight. -/
theorem ends_within_stepsLeft {s : State} (bounds : s.InBounds) : ∃ n, n ≤ s.stepsLeft ∧ (fsmRun n s).busy = false := by
  induction left : s.stepsLeft using Nat.strong_induction_on generalizing s with
  | _ left' ih =>
    by_cases busy : s.st.busy = true
    · have m := fsmStep_move s
      have less := m.stepsLeft bounds busy
      obtain ⟨n, hn, ends⟩ := ih _ (left ▸ less) (m.inBounds bounds) rfl
      exact ⟨n + 1, by omega, ends⟩
    · exact ⟨0, Nat.zero_le _, by simpa [State.busy, fsmRun] using busy⟩

/-- R159: the bound of each operation when it is launched. -/
theorem Launched.stepsLeft {s t : State} {i : Instr} (m : Launched s i t) (held : i.HeldBy s.op) : t.stepsLeft ≤ opBound s.params i := by
  cases m with
  | fatal | pack | parseRejected | parseAccepted | delayNone | codec => simp [State.stepsLeft]
  | isrdy | delay => simp [State.stepsLeft, opBound]
  | waitrdy =>
    obtain ⟨_, rfl⟩ := held
    simp [State.stepsLeft, opBound, State.opTc]
  | recv | readack =>
    obtain ⟨_, _, rfl⟩ := held
    simp [State.stepsLeft, opBound, State.nNotx, State.opTc]
  | send =>
    obtain ⟨op, _⟩ := held
    simp [State.stepsLeft, opBound, State.nNotx, State.replyLeft, State.isXact, State.opCode, op]
    omega
  | sendnb =>
    obtain ⟨op, _⟩ := held
    simp [State.stepsLeft, opBound, State.nNotx, State.replyLeft, State.isXact, State.opCode, op]
    omega
  | xactNoAck =>
    obtain ⟨op, _, _, _, na, _⟩ := held
    simp [State.stepsLeft, opBound, State.nNotx, State.replyLeft, State.isXact, State.opCode, State.opNa, op, ← na]
    omega
  | xactAck =>
    obtain ⟨op, _, _, rfl, na, _⟩ := held
    simp [State.stepsLeft, opBound, State.nNotx, State.replyLeft, State.isXact, State.opCode, State.opNa, State.opTc, op, ← na]
    omega

/-- Settles O43: each FSM step leaves less to do, and a launch leaves no more than the operation's bound. -/
theorem everyOperationEndsWithinItsBound : Obligations.EveryOperationEndsWithinItsBound := by
  unfold Obligations.EveryOperationEndsWithinItsBound
  intro s t v i legal launches
  have launched := launched_of_exec launches
  obtain ⟨_, held⟩ := decode_eq_ok legal
  obtain ⟨n, hn, ends⟩ := ends_within_stepsLeft (launched.inBounds held)
  exact ⟨n, hn.trans (launched.stepsLeft held), ends⟩

/-! ### Chip-select and the phases

A step from an open phase goes on in it, turns from the send to the receive phase of an XACT, or ends the operation; the last two release
chip-select, once (41_transport.md R158). -/

/-- The number of Select that an open phase has recorded so far, by its FSM state (41_transport.md R144, R146). -/
def FsmState.selected (st : FsmState) : Nat := if st.csIdle then 0 else 1

theorem FsmState.selected_le_one (st : FsmState) : st.selected ≤ 1 := by
  unfold FsmState.selected
  split <;> decide

/-- `u` is in the open phase of `s`: in the same direction, with no Deselect between them. -/
structure InPhase (s u : State) : Prop where
  isOpen : u.st.phaseOpen = true
  direction : u.st.sending = s.st.sending
  op : u.op = s.op
  deselects : u.deselects = s.deselects
  selects : u.selects + s.st.selected = s.selects + u.st.selected

/-- `u` has entered the receive phase of an XACT by the release that ended the send phase of `s`. -/
structure Turned (s u : State) : Prop where
  was : s.st.sending = true
  reply : (s.isXact && !s.opNa) = true
  here : u.st = .rWaitReady
  deselects : u.deselects = s.deselects + 1

/-- `u` has ended the operation by the release that ended the phase of `s`. -/
structure Ended (s u : State) : Prop where
  idle : u.st = .idle
  inactive : u.csN = true
  last : u.trace.getLast? = some .deselect
  deselects : u.deselects = s.deselects + 1
  selects : u.selects + s.st.selected ≤ s.selects + 1

/-- R142, R158: the ways that a step of an open phase can go. -/
theorem FsmMove.phase {s t : State} (m : FsmMove s t) (isOpen : s.st.phaseOpen = true) : InPhase s t ∨ Turned s t ∨ Ended s t := by
  have once := s.st.selected_le_one
  cases m with
  | rest still => rcases still with still | still <;> simp [still, FsmState.phaseOpen] at isOpen
  | waited here | gaveUp here | ticked here | tickedLast here | sampled here => simp [here, FsmState.phaseOpen] at isOpen
  | missed | shifted | stored =>
    left
    constructor <;> simp [isOpen, State.deselects, State.selects]
  | selected here | accepted here | shiftedLast here | ready here | oneByte here | moreBytes here | storedLast here =>
    left
    constructor <;>
      simp [here, FsmState.phaseOpen, FsmState.sending, State.deselects, State.selects, FsmState.selected, FsmState.csIdle]
  | turned here _ reply =>
    right; left
    exact ⟨by rw [here]; rfl, reply, by simp, by simp [State.deselects]⟩
  | timeout | busError | sent | badLength | received | rejected | parsed =>
    right; right
    refine ⟨by simp, by simp, by simp, by simp [State.deselects], by simpa [State.selects] using once⟩

theorem InPhase.refl {s : State} (isOpen : s.st.phaseOpen = true) : InPhase s s := ⟨isOpen, rfl, rfl, rfl, rfl⟩

theorem InPhase.trans {s u v : State} (h : InPhase s u) (k : InPhase u v) : InPhase s v where
  isOpen := k.isOpen
  direction := k.direction.trans h.direction
  op := k.op.trans h.op
  deselects := k.deselects.trans h.deselects
  selects := by have := h.selects; have := k.selects; omega

theorem InPhase.turned {s u v : State} (h : InPhase s u) (k : Turned u v) : Turned s v where
  was := h.direction ▸ k.was
  reply := by simpa [State.isXact, State.opCode, State.opNa, h.op] using k.reply
  here := k.here
  deselects := by rw [k.deselects, h.deselects]

theorem InPhase.ended {s u v : State} (h : InPhase s u) (k : Ended u v) : Ended s v where
  idle := k.idle
  inactive := k.inactive
  last := k.last
  deselects := by rw [k.deselects, h.deselects]
  selects := by have := h.selects; have := k.selects; omega

/-- R158: a run from an open phase is still in it, or has left it after some number of steps by the turn or by the end. -/
theorem fsmRun_phase {s : State} (isOpen : s.st.phaseOpen = true) (n : Nat) :
    (∀ i, i ≤ n → InPhase s (fsmRun i s)) ∨
      ∃ j, j ≤ n ∧ (∀ i, i < j → InPhase s (fsmRun i s)) ∧ (Turned s (fsmRun j s) ∨ Ended s (fsmRun j s)) := by
  induction n with
  | zero => exact .inl fun i hi => by obtain rfl := Nat.le_zero.mp hi; exact .refl isOpen
  | succ n ih =>
    rcases ih with inPhase | ⟨j, hj, before, left⟩
    · have now := inPhase n le_rfl
      have before : ∀ i, i < n + 1 → InPhase s (fsmRun i s) := fun i hi => inPhase i (Nat.lt_succ_iff.mp hi)
      have next := (fsmStep_move (fsmRun n s)).phase now.isOpen
      rw [← fsmRun_succ] at next
      rcases next with goesOn | turned | ended
      · refine .inl fun i hi => ?_
        rcases Nat.lt_or_eq_of_le hi with earlier | rfl
        · exact before i earlier
        · exact now.trans goesOn
      · exact .inr ⟨n + 1, le_rfl, before, .inl (now.turned turned)⟩
      · exact .inr ⟨n + 1, le_rfl, before, .inr (now.ended ended)⟩
    · exact .inr ⟨j, by omega, before, left⟩

/-- An ended operation stays as it is. -/
theorem Ended.fsmRun {s : State} {j n : Nat} (h : Ended s (fsmRun j s)) (hj : j ≤ n) : fsmRun n s = fsmRun j s := by
  obtain ⟨k, rfl⟩ := Nat.exists_eq_add_of_le hj
  rw [fsmRun_add, fsmRun_idle k _ h.idle]

/-- R32: a block in an open phase is BUSY. -/
theorem busy_of_phaseOpen {s : State} (h : s.st.phaseOpen = true) : s.busy = true := by
  unfold State.busy
  cases here : s.st <;> simp [here, FsmState.phaseOpen, FsmState.busy] at h ⊢

/-- R145, R147: the launch part of an operation of the transport, unless it failed, enters its first wait and records nothing. -/
theorem launch_opens_phase {s t : State} {i : Instr}
    (transport : (∃ n, i = .send n) ∨ (∃ cap tc, i = .recv cap tc) ∨ (∃ cmd n, i = .sendnb cmd n) ∨
      (∃ cap tc, i = .readack cap tc) ∨ ∃ cmd n tc na apl, i = .xact cmd n tc na apl)
    (m : Launched s i t) (busy : t.busy = true) :
    t.st.phaseOpen = true ∧ t.st.selected = 0 ∧ t.trace = s.trace ∧ t.op = s.op := by
  cases m with
  | fatal => simp [State.busy, FsmState.busy] at busy
  | codec isCodec => rcases isCodec with rfl | rfl | rfl | rfl <;> simp at transport
  | send | recv | sendnb | readack | xactNoAck | xactAck => simp [FsmState.phaseOpen, FsmState.selected, FsmState.csIdle]
  | pack | parseRejected | parseAccepted | waitrdy | isrdy | delayNone | delay => simp at transport

/-- Settles O41: without the turn of an XACT a run is in the phase that the launch entered, or has ended it. -/
theorem chipSelectIsReleasedExactlyOnce : Obligations.ChipSelectIsReleasedExactlyOnce := by
  unfold Obligations.ChipSelectIsReleasedExactlyOnce
  intro s t v i legal transport launches busy n
  obtain ⟨_, held⟩ := decode_eq_ok legal
  obtain ⟨isOpen, inactive, trace, op⟩ :=
    launch_opens_phase (by rcases transport with h | h | h | h <;> simp [h]) (launched_of_exec launches) busy
  have op' : t.op = v := op
  have noXact : t.isXact = false := by
    rcases transport with ⟨_, rfl⟩ | ⟨_, _, rfl⟩ | ⟨_, _, rfl⟩ | ⟨_, _, rfl⟩ <;>
      (obtain ⟨code, _⟩ := held; simp [State.isXact, State.opCode, op', code])
  have deselects : t.deselects = s.deselects := congrArg (List.count Event.deselect) trace
  have selects : t.selects = s.selects := congrArg (List.count Event.select) trace
  rcases fsmRun_phase isOpen n with inPhase | ⟨j, hj, _, turned | ended⟩
  · have now := inPhase n le_rfl
    refine ⟨fun _ => ⟨now.deselects.trans deselects, ?_, ?_⟩, fun ends => ?_⟩
    · have := now.deselects
      rw [raiseFatal_of_phase_open _ now.isOpen]
      simp [State.deselects] at this deselects ⊢
      omega
    · rw [raiseFatal_of_phase_open _ now.isOpen]
    · rw [busy_of_phaseOpen now.isOpen] at ends
      cases ends
  · have := turned.reply
    rw [noXact] at this
    cases this
  · rw [ended.fsmRun hj]
    have := ended.selects
    refine ⟨fun still => ?_, fun _ =>
      ⟨by rw [ended.deselects, deselects], by omega, ended.inactive, List.getLast?_eq_some_iff.mp ended.last⟩⟩
    simp [State.busy, ended.idle, FsmState.busy] at still

/-- R181: the launch part of an XACT, unless it failed, enters the first wait of the send phase. -/
theorem launch_xact_here {s t : State} {cmd : Byte} {n : Nat} {tc : TimeoutClass} {na : Bool} {apl : Nat}
    (m : Launched s (.xact cmd n tc na apl) t) (busy : t.busy = true) : t.st = .sWaitIdle := by
  cases m with
  | fatal => simp [State.busy, FsmState.busy] at busy
  | codec isCodec => simp at isCodec
  | xactNoAck | xactAck => simp

/-- R158: a run from a receive phase that is no longer BUSY has ended the operation. -/
theorem fsmRun_receiving {s : State} (here : s.st = .rWaitReady) {n : Nat} (ends : (fsmRun n s).busy = false) :
    Ended s (fsmRun n s) := by
  rcases fsmRun_phase (s := s) (by rw [here]; rfl) n with inPhase | ⟨j, hj, _, turned | ended⟩
  · rw [busy_of_phaseOpen (inPhase n le_rfl).isOpen] at ends
    cases ends
  · have was := turned.was
    rw [here] at was
    cases was
  · rwa [ended.fsmRun hj]

/-- Settles O42: the send phase of an XACT ends the operation, or it turns to the receive phase, which ends it. -/
theorem xactReleasesOncePerPhase : Obligations.XactReleasesOncePerPhase := by
  unfold Obligations.XactReleasesOncePerPhase
  intro s t v cmd n tc na apl legal launches busy m ends
  have launched := launched_of_exec launches
  obtain ⟨_, _, _, _, _, na', _⟩ := decode_eq_ok legal
  have here := launch_xact_here launched busy
  obtain ⟨isOpen, _, trace, op⟩ := launch_opens_phase (by simp) launched busy
  have deselects : t.deselects = s.deselects := congrArg (List.count Event.deselect) trace
  have noReceive : ∀ {i}, InPhase t (fsmRun i t) → (fsmRun i t).st ≠ .rWaitReady := by
    intro i inPhase receive
    have direction := inPhase.direction
    rw [receive, here] at direction
    cases direction
  rcases fsmRun_phase isOpen m with inPhase | ⟨j, hj, before, turned | ended⟩
  · rw [busy_of_phaseOpen (inPhase m le_rfl).isOpen] at ends
    cases ends
  · obtain ⟨k, rfl⟩ := Nat.exists_eq_add_of_le hj
    rw [fsmRun_add] at ends ⊢
    have ended := fsmRun_receiving turned.here ends
    have notNow : k ≠ 0 := by
      rintro rfl
      simp [fsmRun, State.busy, turned.here, FsmState.busy] at ends
    have reply : na = false := by
      have := turned.reply
      have latched : t.opNa = na := by rw [na', State.opNa, op]; rfl
      simpa [latched] using (Bool.and_eq_true_iff.mp this).2
    refine ⟨ended.inactive, fun _ => ⟨reply, by rw [ended.deselects, turned.deselects, deselects]⟩, fun never => ?_⟩
    exact absurd turned.here (never j (by omega))
  · rw [ended.fsmRun hj]
    refine ⟨ended.inactive, fun ⟨i, _, receive⟩ => ?_, fun _ => by rw [ended.deselects, deselects]⟩
    rcases Nat.lt_or_ge i j with earlier | later
    · exact absurd receive (noReceive (before i earlier))
    · rw [ended.fsmRun later, ended.idle] at receive
      cases receive

/-! ### A whole transaction -/

/-- Where an XACT that expects an acknowledgement ends when the chip keeps to the protocol (42_command_engine.md R181 to R184). -/
def afterTransaction (i : Nat) (xs ys : List (Byte × Bool)) (busyRest : List Bool) (xchgRest : List (Byte × Bool)) (s : State) : State :=
  afterReply ys (afterReceive i ys busyRest xchgRest (openReceive (afterSend xs (false :: true :: busyRest) (ys ++ xchgRest) s)))

/-- R181: the send phase turns to the receive phase, which ends with the parse step. -/
theorem fsmRun_transaction {s : State} {xs ys xchgRest : List (Byte × Bool)} {busyRest : List Bool} (here : s.st = .sWaitIdle)
    (op : s.opCode = 0x8#4) (na : s.opNa = false) (pos : 1 ≤ s.len) (len : xs.length = s.len) (long : 3 ≤ ys.length)
    (cap : ys.length ≤ s.cap) (capMax : s.cap ≤ 26) (replyLen : (replyByte ys 0).toNat = ys.length) (fine : ∀ x ∈ xs ++ ys, x.2 = false)
    (line : s.busyIn = true :: false :: true :: false :: true :: busyRest) (left : s.xchgIn = xs ++ ys ++ xchgRest) :
    ∃ i, fsmRun (s.len + 3 + (ys.length + 2)) s = afterTransaction i xs ys busyRest xchgRest s := by
  rw [List.forall_mem_append] at fine
  obtain ⟨xsFine, ysFine⟩ := fine
  have sent := fsmRun_sendPhase here pos len xsFine line (left.trans (List.append_assoc xs ys xchgRest))
  have turns : sendDone (afterSend xs (false :: true :: busyRest) (ys ++ xchgRest) s) =
      openReceive (afterSend xs (false :: true :: busyRest) (ys ++ xchgRest) s) :=
    if_pos (by simpa [State.isXact, State.opCode, State.opNa, afterSend] using And.intro op na)
  rw [fsmRun_add, sent, turns]
  unfold afterTransaction
  generalize opened : openReceive (afterSend xs (false :: true :: busyRest) (ys ++ xchgRest) s) = r
  obtain ⟨st, capR, opR, busy, xchg⟩ : r.st = .rWaitReady ∧ r.cap = s.cap ∧ r.op = s.op ∧ r.busyIn = false :: true :: busyRest ∧
      r.xchgIn = ys ++ xchgRest := by
    subst opened
    simp [afterSend]
  obtain ⟨i, received⟩ := fsmRun_receivePhase st (by omega) (by omega) replyLen ysFine busy xchg
  have parses : (afterReceive i ys busyRest xchgRest r).opCode = 0x8#4 := by simpa [State.opCode, afterReceive, opR] using op
  have capU : ys.length ≤ (afterReceive i ys busyRest xchgRest r).cap := by simpa [afterReceive, capR] using cap
  refine ⟨i, ?_⟩
  rw [received, recvDone_of_parses (.inl parses)]
  exact parseStep_of_reply replyLen long capU fun j hj => afterReceive_rxf i ys busyRest xchgRest r (by omega) hj

/-- R25: exchanges record neither chip-select nor ticks. -/
theorem count_exchanges (tx : Nat → Byte) (xs : List (Byte × Bool)) (n : Nat) {e : Event} (other : ∀ a b, e ≠ .xfer a b) :
    (exchanges tx xs n).count e = 0 := by
  refine List.count_eq_zero.mpr fun h => ?_
  obtain ⟨j, _, rfl⟩ := List.mem_map.mp h
  exact other _ _ rfl

section
variable (i : Nat) (xs ys : List (Byte × Bool)) (busyRest : List Bool) (xchgRest : List (Byte × Bool)) (s : State)

/-- R142, R158: the wire events of a whole transaction, but for its exchanges. -/
theorem count_afterTransaction {e : Event} (other : ∀ a b, e ≠ .xfer a b) :
    (afterTransaction i xs ys busyRest xchgRest s).trace.count e = s.trace.count e +
      [Event.sample true, .select, .sample false, .sample true, .deselect, .sample false, .select, .sample true, .deselect].count e := by
  have sent := count_exchanges s.txf xs s.len other
  have received := count_exchanges (fun _ => 0xFF#8) ys ys.length other
  rw [exchanges_length] at received
  simp only [afterTransaction, afterReply, afterReceive, openReceive_fields, afterSend, List.count_append, List.count_cons, List.count_nil,
    sent, received]
  omega

/-- R184: the anomaly check of a whole transaction. -/
theorem afterTransaction_anomaly : (afterTransaction i xs ys busyRest xchgRest s).anomaly =
    (s.anomaly || (s.isXact && decide (ys.length ≠ 3 + s.opApl))) := rfl

/-- R183: a transaction writes TXF, RXF and APAY only. -/
theorem afterTransaction_pin (j : Nat) : (afterTransaction i xs ys busyRest xchgRest s).pin j = s.pin j := by
  change Memory.readBuf (Memory.storeBytes (Memory.storeBytes
    (dummyFill s.cap (afterSend xs (false :: true :: busyRest) (ys ++ xchgRest) s)).mem .rxf 0 _ _) .apay 0 _ _) .pin j = _
  rw [Memory.readBuf_storeBytes, if_neg (by simp), Memory.readBuf_storeBytes, if_neg (by simp), dummyFill_readBuf, if_neg (by simp)]
  rfl

/-- R146: the reply stands in RXF. -/
theorem afterTransaction_rxf (fits : ys.length ≤ 26) {j : Nat} (hj : j < ys.length) :
    (afterTransaction i xs ys busyRest xchgRest s).rxf j = replyByte ys j :=
  (storeApay_rxf ..).trans (afterReceive_rxf i ys busyRest xchgRest _ fits hj)

/-- R183: the payload of the reply stands in APAY. -/
theorem afterTransaction_apay (fits : ys.length ≤ 26) {j : Nat} (hj : j < ys.length - 3) :
    (afterTransaction i xs ys busyRest xchgRest s).apay j = replyByte ys (3 + j) :=
  (storeApay_apay _ _ (by omega) hj).trans (afterReceive_rxf i ys busyRest xchgRest _ fits (by omega))

end

/-- Settles O38: the launch part packs the frame, and a transaction follows. -/
theorem xactRunsSendReceiveParse : Obligations.XactRunsSendReceiveParse := by
  unfold Obligations.XactRunsSendReceiveParse
  intro s a v cmd n tc apl xs ys busyRest xchgRest legal first last short fits launches len long cap replyLen fine line left
  obtain ⟨_, op, _, _, _, na, apl'⟩ := decode_eq_ok legal
  have capMax : xactCap s.config.capMode apl ≤ 26 := (xactCap_range _ fits).2
  have launched := exec_xactAck_of_legal tc (s := latchWord v s) ((cmdLegal_eq_true_iff _ cmd).mpr ⟨first, last⟩) short fits
  obtain ⟨st, opA, lenA, capA, anomaly, fatal, trace, busy, xchg, pin⟩ : a.st = .sWaitIdle ∧ a.op = v ∧ a.len = n + 2 ∧
      a.cap = xactCap s.config.capMode apl ∧ a.anomaly = false ∧ a.fatal = s.fatal ∧ a.trace = s.trace ∧ a.busyIn = s.busyIn ∧
      a.xchgIn = s.xchgIn ∧ ∀ j, a.pin j = s.pin j := by
    obtain rfl : openSend (n + 2) { packFrame cmd n (latchWord v s) with cap := xactCap s.config.capMode apl } = a :=
      Host.Outcome.next.inj (launched.symm.trans launches)
    have pin : ∀ j, Memory.readBuf (packFrame cmd n (latchWord v s)).mem .pin j = Memory.readBuf s.mem .pin j := fun j => by
      rw [packFrame_readBuf cmd n _ .pin j short]
      simp
    simpa [State.pin] using pin
  have opA' : a.opCode = 0x8#4 := by rw [State.opCode, opA, op]
  have naA : a.opNa = false := by rw [State.opNa, opA, ← na]
  obtain ⟨i, run⟩ := fsmRun_transaction st opA' naA (by omega) (len.trans lenA.symm) long cap (by omega) replyLen fine (busy.trans line)
    (xchg.trans left)
  have fits26 : ys.length ≤ 26 := by omega
  have counts := fun e => count_afterTransaction i xs ys busyRest xchgRest a (e := e)
  rw [show n + ys.length + 7 = a.len + 3 + (ys.length + 2) by omega, run]
  refine ⟨_, rfl, rfl, rfl, rfl, fatal, rfl, ?anomaly, rfl, rfl, fun j hj => ?rxf, fun j hj => ?apay, fun j _ => ?pin, ?selects, ?deselects,
    ?ticks, rfl, rfl⟩
  case anomaly =>
    have isXact : a.isXact = true := decide_eq_true opA'
    have aplA : a.opApl = apl := by rw [State.opApl, opA, ← apl']
    rw [afterTransaction_anomaly, anomaly, isXact, aplA, Bool.false_or, Bool.true_and]
  case rxf => exact afterTransaction_rxf i xs ys busyRest xchgRest a fits26 hj
  case apay => exact afterTransaction_apay i xs ys busyRest xchgRest a fits26 hj
  case pin => exact (afterTransaction_pin i xs ys busyRest xchgRest a j).trans (pin j)
  case selects => exact (counts .select (by simp)).trans (by rw [trace]; rfl)
  case deselects => exact (counts .deselect (by simp)).trans (by rw [trace]; rfl)
  case ticks => exact (counts .tick (by simp)).trans (by rw [trace]; rfl)

end Sys2Proof.Machine

/-! # 42_command_engine.md R192: the split transaction

SENDNB keeps step with the send phase of XACT, and READACK with its receive phase: the first as the same state with another latched word
and more levels to sample, the second as a state that agrees on what the receive phase reads and on what it leaves to the host. -/
namespace Sys2Proof.Machine

/-! ### The steps by the operations on the state -/

theorem pollStep_eq (target : Bool) (n : Nat) (onOK onTimeout : State → State) (s : State) :
    pollStep target n onOK onTimeout s =
      if s.busyNext = target then onOK (sampleBusy s) else if n ≤ s.k + 1 then onTimeout (missedSample s) else missedSample s := rfl

theorem stepRXferLen_eq (s : State) :
    stepRXferLen s =
      if s.errNext = true then abortPhase .buserr (spiXchg 0xFF#8 s)
      else if s.rxNext.toNat = 0 ∨ s.cap < s.rxNext.toNat then abortPhase .acklen (takeLength s)
      else if s.rxNext.toNat = 1 then enterWait .rWaitDone (takeLength s)
      else goto .rXfer { takeLength s with i := 1 } := rfl

theorem stepRXfer_eq (s : State) :
    stepRXfer s =
      if s.errNext = true then abortPhase .buserr (spiXchg 0xFF#8 s)
      else if s.i + 1 = s.lenByte.toNat then enterWait .rWaitDone (takeByte s) else takeByte s := rfl

/-! ### What a receive phase reads -/

/-- The states whose step exchanges a byte (41_transport.md R144, R146). -/
def FsmState.transfers : FsmState → Bool
  | .sXfer | .rXferLen | .rXfer => true
  | .idle | .sWaitIdle | .sWaitAccept | .sWaitDone | .rWaitReady | .rWaitDone | .wWaitHigh | .dly | .smp | .fault => false

/-- `u` and `s` agree on all that a receive phase which ends with the parse step reads, and on what it leaves to the host. Of Deselect they
have recorded `x` and `y` on the way. -/
structure InStep (x y : Nat) (s u : State) : Prop where
  st : u.st = s.st
  params : u.params = s.params
  mem : u.mem = s.mem
  drvstate : u.drvstate = s.drvstate
  ackinfo : u.ackinfo = s.ackinfo
  done : u.done = s.done
  result : u.result = s.result
  k : u.k = s.k
  cap : u.cap = s.cap
  busyIn : u.busyIn = s.busyIn
  xchgIn : u.xchgIn = s.xchgIn
  tc : u.opTc = s.opTc
  parses : s.parsesAck = true
  parses' : u.parsesAck = true
  reply : s.st = .rXfer → u.i = s.i ∧ u.lenByte = s.lenByte
  deselects : u.deselects + x = s.deselects + y

namespace InStep
variable {x y : Nat} {s u : State} (h : InStep x y s u)
include h

/-! One rule per operation on the state. -/

theorem missedSample : InStep x y (Machine.missedSample s) (Machine.missedSample u) := by
  cases h
  constructor <;> simp_all [State.opTc, State.parsesAck, State.opCode, State.deselects]

theorem sampleBusy : InStep x y (Machine.sampleBusy s) (Machine.sampleBusy u) := by
  cases h
  constructor <;> simp_all [State.opTc, State.parsesAck, State.opCode, State.deselects]

theorem csAssert : InStep x y (Machine.csAssert s) (Machine.csAssert u) := by
  cases h
  constructor <;> simp_all [State.opTc, State.parsesAck, State.opCode, State.deselects]

theorem csRelease : InStep x y (Machine.csRelease s) (Machine.csRelease u) := by
  cases h
  constructor <;> simp_all [State.opTc, State.parsesAck, State.opCode, State.deselects]
  omega

theorem spiXchg (tx : Byte) : InStep x y (Machine.spiXchg tx s) (Machine.spiXchg tx u) := by
  cases h
  constructor <;> simp_all [State.opTc, State.parsesAck, State.opCode, State.deselects]

theorem finish (res : OpResult) : InStep x y (Machine.finish res s) (Machine.finish res u) := by
  cases h
  constructor <;> simp_all [State.opTc, State.parsesAck, State.opCode, State.deselects]

theorem enterWait {st : FsmState} (other : st ≠ .rXfer) : InStep x y (Machine.enterWait st s) (Machine.enterWait st u) := by
  cases h
  constructor <;> simp_all [State.opTc, State.parsesAck, State.opCode, State.deselects]

theorem goto {st : FsmState} (other : st ≠ .rXfer) : InStep x y (Machine.goto st s) (Machine.goto st u) := by
  cases h
  constructor <;> simp_all [State.opTc, State.parsesAck, State.opCode, State.deselects]

theorem takeLength (rx : u.rxNext = s.rxNext) : InStep x y (Machine.takeLength s) (Machine.takeLength u) := by
  cases h
  constructor <;> simp_all [State.opTc, State.parsesAck, State.opCode, State.deselects]

theorem startReply (len : u.lenByte = s.lenByte) :
    InStep x y (Machine.goto .rXfer { s with i := 1 }) (Machine.goto .rXfer { u with i := 1 }) := by
  cases h
  constructor <;> simp_all [State.opTc, State.parsesAck, State.opCode, State.deselects]

theorem takeByte (here : s.st = .rXfer) (rx : u.rxNext = s.rxNext) : InStep x y (Machine.takeByte s) (Machine.takeByte u) := by
  cases h
  constructor <;> simp_all [State.opTc, State.parsesAck, State.opCode, State.deselects]

theorem acceptReply : InStep x y (Machine.acceptReply s) (Machine.acceptReply u) := by
  cases h
  constructor <;> simp_all [State.rxf, State.opTc, State.parsesAck, State.opCode, State.deselects]

theorem flagAnomaly : InStep x y (Machine.flagAnomaly s) (Machine.flagAnomaly u) := by
  cases h
  constructor <;> simp_all [State.opTc, State.parsesAck, State.opCode, State.deselects]

/-! The steps of the receive phase. -/

theorem pollStep {target : Bool} {n : Nat} {onOK onTimeout : State → State} (level : u.busyNext = s.busyNext)
    (ok : InStep x y (onOK (Machine.sampleBusy s)) (onOK (Machine.sampleBusy u)))
    (late : InStep x y (onTimeout (Machine.missedSample s)) (onTimeout (Machine.missedSample u))) :
    InStep x y (Machine.pollStep target n onOK onTimeout s) (Machine.pollStep target n onOK onTimeout u) := by
  rw [pollStep_eq, pollStep_eq, level, h.k]
  split_ifs
  · exact ok
  · exact late
  · exact h.missedSample

theorem abortPhase (res : OpResult) : InStep x y (Machine.abortPhase res s) (Machine.abortPhase res u) := h.csRelease.finish res

theorem parseStep : InStep x y (Machine.parseStep s) (Machine.parseStep u) := by
  have rxf : ∀ j, u.rxf j = s.rxf j := fun j => by rw [State.rxf, h.mem]
  by_cases bad : (s.rxf 0).toNat < 3 ∨ s.cap - 3 < (s.rxf 0).toNat - 3
  · have bad' : (u.rxf 0).toNat < 3 ∨ u.cap - 3 < (u.rxf 0).toNat - 3 := by rwa [rxf, h.cap]
    rw [parseStep_of_rejected ((parseAck_eq_none _ s).mpr bad), parseStep_of_rejected ((parseAck_eq_none _ u).mpr bad')]
    exact h.finish .acklen
  · obtain ⟨long, fits⟩ := not_or.mp bad
    have result : replyResult u = replyResult s := by rw [replyResult, replyResult, rxf]
    rw [parseStep_of_accepts (s := s) (by omega) (by omega), parseStep_of_accepts (s := u) (by rw [rxf]; omega) (by rw [rxf, h.cap]; omega),
      result]
    exact h.acceptReply.flagAnomaly.finish (replyResult s)

theorem recvDone : InStep x y (Machine.recvDone s) (Machine.recvDone u) := by
  rw [Machine.recvDone, Machine.recvDone, if_pos h.parses, if_pos h.parses']
  exact h.parseStep

theorem stepRXferLen (rx : u.rxNext = s.rxNext) (err : u.errNext = s.errNext) :
    InStep x y (Machine.stepRXferLen s) (Machine.stepRXferLen u) := by
  have taken := h.takeLength rx
  rw [stepRXferLen_eq, stepRXferLen_eq, rx, err, h.cap]
  split_ifs
  · exact (h.spiXchg _).abortPhase .buserr
  · exact taken.abortPhase .acklen
  · exact taken.enterWait (by decide)
  · exact taken.startReply rx

theorem stepRXfer (here : s.st = .rXfer) (rx : u.rxNext = s.rxNext) (err : u.errNext = s.errNext) :
    InStep x y (Machine.stepRXfer s) (Machine.stepRXfer u) := by
  obtain ⟨i, len⟩ := h.reply here
  have taken := h.takeByte here rx
  rw [stepRXfer_eq, stepRXfer_eq, err, i, len]
  split_ifs
  · exact (h.spiXchg _).abortPhase .buserr
  · exact taken.enterWait (by decide)
  · exact taken

/-- R192: equal inputs keep the two in step. -/
theorem fsmStep (phase : s.st.receiving = true ∨ s.st = .idle) (level : s.st.waiting = true → u.busyNext = s.busyNext)
    (xchg : s.st.transfers = true → u.rxNext = s.rxNext ∧ u.errNext = s.errNext) :
    InStep x y (Machine.fsmStep s) (Machine.fsmStep u) := by
  have st := h.st
  have nNotx : u.nNotx = s.nNotx := by rw [State.nNotx, h.params]
  cases here : s.st with
  | idle => rwa [fsmStep_idle here, fsmStep_idle (st.trans here)]
  | rWaitReady =>
    rw [fsmStep_rWaitReady here, fsmStep_rWaitReady (st.trans here), Machine.stepRWaitReady, Machine.stepRWaitReady, h.params, h.tc]
    exact h.pollStep (level (by rw [here]; rfl)) (h.sampleBusy.csAssert.goto (by decide)) (h.missedSample.abortPhase .timeout)
  | rXferLen =>
    obtain ⟨rx, err⟩ := xchg (by rw [here]; rfl)
    rw [fsmStep_rXferLen here, fsmStep_rXferLen (st.trans here)]
    exact h.stepRXferLen rx err
  | rXfer =>
    obtain ⟨rx, err⟩ := xchg (by rw [here]; rfl)
    rw [fsmStep_rXfer here, fsmStep_rXfer (st.trans here)]
    exact h.stepRXfer here rx err
  | rWaitDone =>
    rw [fsmStep_rWaitDone here, fsmStep_rWaitDone (st.trans here), Machine.stepRWaitDone, Machine.stepRWaitDone, nNotx]
    exact h.pollStep (level (by rw [here]; rfl)) h.sampleBusy.csRelease.recvDone (h.missedSample.abortPhase .timeout)
  | sWaitIdle | sWaitAccept | sXfer | sWaitDone | wWaitHigh | dly | smp | fault => simp [here, FsmState.receiving] at phase

end InStep

/-! ### The inputs of a receive phase -/

/-- The most samples that a receive phase still takes (41_transport.md R159). -/
def State.samplesLeft (s : State) : Nat :=
  match s.st with
  | .rWaitReady => pollBound s.params s.opTc - s.k + s.nNotx
  | .rXferLen | .rXfer => s.nNotx
  | .rWaitDone => s.nNotx - s.k
  | .idle | .sWaitIdle | .sWaitAccept | .sXfer | .sWaitDone | .wWaitHigh | .dly | .smp | .fault => 0

/-- The most exchanges that a receive phase still makes (41_transport.md R146). -/
def State.xchgsLeft (s : State) : Nat :=
  match s.st with
  | .rWaitReady | .rXferLen => 26
  | .rXfer => s.lenByte.toNat - s.i
  | .rWaitDone | .idle | .sWaitIdle | .sWaitAccept | .sXfer | .sWaitDone | .wWaitHigh | .dly | .smp | .fault => 0

/-- The chip's lists reach to the end of the receive phase (log 3). -/
def State.Supplied (s : State) : Prop := s.samplesLeft ≤ s.busyIn.length ∧ s.xchgsLeft ≤ s.xchgIn.length

/-- R146: a step of a receive phase leaves its lists long enough. -/
theorem FsmMove.supplied {s t : State} (m : FsmMove s t) (bounds : s.InBounds) (phase : s.st.receiving = true ∨ s.st = .idle)
    (h : s.Supplied) : t.Supplied := by
  obtain ⟨samples, xchgs⟩ := h
  cases m with
  | rest => exact ⟨samples, xchgs⟩
  | timeout | busError | sent | badLength | received | rejected | parsed | waited | gaveUp | tickedLast | sampled =>
    simp [State.Supplied, State.samplesLeft, State.xchgsLeft]
  | selected here | accepted here | shifted here | shiftedLast here | turned here | ticked here =>
    simp [here, FsmState.receiving] at phase
  | missed wait _ more =>
    simp only [State.Supplied, State.samplesLeft, State.xchgsLeft, State.waitBound, State.nNotx, State.opTc, missedSample_fields,
      List.length_tail] at samples xchgs more ⊢
    cases here : s.st <;> simp [here, FsmState.waiting, FsmState.receiving] at wait phase samples xchgs more ⊢ <;> omega
  | ready here | oneByte here | stored here | storedLast here =>
    simp [State.Supplied, State.samplesLeft, State.xchgsLeft, State.InBounds, State.nNotx, here] at samples xchgs bounds ⊢
    omega
  | moreBytes here _ _ fits =>
    have cap := cap_le_of_recvOp (s := s) (by simpa [State.InBounds, here] using bounds)
    simp [State.Supplied, State.samplesLeft, State.xchgsLeft, State.nNotx, here] at samples xchgs ⊢
    omega

/-- R23: a step takes one input in the states that sample or exchange, and none in the others. -/
theorem fsmStep_draws (s : State) :
    (fsmStep s).draws = s.draws + (s.st.waiting || s.st.transfers || decide (s.st = .smp)).toNat := by
  have m := fsmStep_move s
  generalize fsmStep s = t at m ⊢
  cases m with
  | rest still => rcases still with here | here <;> simp [here, FsmState.waiting, FsmState.transfers]
  | missed wait | timeout wait => simp [wait]
  | busError _ here => rcases here with ⟨here, _⟩ | ⟨here, _⟩ | ⟨here, _⟩ <;> simp [here, FsmState.transfers]
  | selected here | accepted here | sent here | turned here | ready here => simp [here, FsmState.waiting]
  | received here | rejected here | parsed here | waited here | gaveUp here => simp [here, FsmState.waiting]
  | shifted here | shiftedLast here | badLength here | oneByte here | moreBytes here | stored here | storedLast here =>
    simp [here, FsmState.transfers]
  | ticked here | tickedLast here | sampled here => simp [here, FsmState.waiting, FsmState.transfers]

/-- Log 3: the next level is the head of the list, or else the next draw. -/
theorem busyNext_eq {s u : State} (busyIn : u.busyIn = s.busyIn) (h : u.draws = s.draws ∨ s.busyIn ≠ []) : u.busyNext = s.busyNext := by
  rw [State.busyNext, State.busyNext, busyIn]
  rcases h with draws | nonempty
  · rw [draws]
  · obtain ⟨x, xs, e⟩ := List.exists_cons_of_ne_nil nonempty
    rw [e]; rfl

/-- Log 3: the next answer of the chip is the head of the list, or else the next draw. -/
theorem xchgNext_eq {s u : State} (params : u.params = s.params) (xchgIn : u.xchgIn = s.xchgIn)
    (h : u.draws = s.draws ∨ s.xchgIn ≠ []) : u.rxNext = s.rxNext ∧ u.errNext = s.errNext := by
  rw [State.rxNext, State.rxNext, State.errNext, State.errNext, params, xchgIn]
  rcases h with draws | nonempty
  · simp [draws]
  · obtain ⟨x, xs, e⟩ := List.exists_cons_of_ne_nil nonempty
    simp [e]

/-- R146: a wait or a transfer of a receive phase whose lists are long enough finds an input on them. -/
theorem State.Supplied.nonempty {s : State} (h : s.Supplied) (bounds : s.InBounds) (phase : s.st.receiving = true ∨ s.st = .idle) :
    (s.st.waiting = true → s.busyIn ≠ []) ∧ (s.st.transfers = true → s.xchgIn ≠ []) := by
  obtain ⟨samples, xchgs⟩ := h
  simp only [← List.length_pos_iff]
  unfold State.InBounds at bounds
  unfold State.samplesLeft at samples
  unfold State.xchgsLeft at xchgs
  cases here : s.st <;> simp_all [FsmState.waiting, FsmState.transfers, FsmState.receiving] <;> omega

/-- R142: a receive phase is no send phase. -/
theorem sending_of_receiving {st : FsmState} (h : st.receiving = true) : st.sending = false := by
  cases st <;> simp_all [FsmState.receiving, FsmState.sending]

/-- What holds of XACT's receive phase and of READACK's after every number of steps (42_command_engine.md R192). -/
structure Tracks (x y : Nat) (s u : State) : Prop where
  inStep : InStep x y s u
  bounds : s.InBounds
  phase : s.st.receiving = true ∨ s.st = .idle
  inputs : u.draws = s.draws ∨ s.Supplied

theorem Tracks.fsmStep {x y : Nat} {s u : State} (h : Tracks x y s u) : Tracks x y (fsmStep s) (fsmStep u) where
  inStep := by
    refine h.inStep.fsmStep h.phase (fun waits => ?_) fun transfers => ?_
    · exact busyNext_eq h.inStep.busyIn (h.inputs.imp_right fun supplied => (supplied.nonempty h.bounds h.phase).1 waits)
    · exact xchgNext_eq h.inStep.params h.inStep.xchgIn
        (h.inputs.imp_right fun supplied => (supplied.nonempty h.bounds h.phase).2 transfers)
  bounds := (fsmStep_move s).inBounds h.bounds
  phase := by
    rcases h.phase with receiving | idle
    · have notSending := sending_of_receiving receiving
      rcases (fsmStep_move s).phase (by rw [phaseOpen_eq, receiving, Bool.or_true]) with goesOn | turned | ended
      · have isOpen := goesOn.isOpen
        rw [phaseOpen_eq, goesOn.direction, notSending] at isOpen
        exact .inl isOpen
      · simp [turned.was] at notSending
      · exact .inr ended.idle
    · rw [fsmStep_idle idle]; exact .inr idle
  inputs := by
    rw [fsmStep_draws, fsmStep_draws, h.inStep.st]
    exact h.inputs.imp (fun draws => by rw [draws]) ((fsmStep_move s).supplied h.bounds h.phase)

theorem Tracks.fsmRun {x y : Nat} {s u : State} (h : Tracks x y s u) (n : Nat) : Tracks x y (fsmRun n s) (fsmRun n u) := by
  induction n with
  | zero => exact h
  | succ n ih => rw [fsmRun_succ, fsmRun_succ]; exact ih.fsmStep

/-! ### The send phase -/

/-- The state of XACT's send phase as SENDNB has it: another latched word, the capacity that stood before, and more levels to sample. -/
def asSendnb (w : Word) (cap : Nat) (line : List Bool) (s : State) : State := { s with opword := w, op := w, cap := cap, busyIn := line }

section
variable {w : Word} {cap : Nat} {line : List Bool} {s : State}

theorem sampleBusy_asSendnb (level : (asSendnb w cap line s).busyNext = s.busyNext) :
    sampleBusy (asSendnb w cap line s) = asSendnb w cap line.tail (sampleBusy s) := by
  rw [sampleBusy, level]
  rfl

theorem missedSample_asSendnb (level : (asSendnb w cap line s).busyNext = s.busyNext) :
    missedSample (asSendnb w cap line s) = asSendnb w cap line.tail (missedSample s) := by
  rw [missedSample, sampleBusy_asSendnb level]
  rfl

theorem pollStep_asSendnb {target : Bool} {n : Nat} {onOK onTimeout : State → State}
    (level : (asSendnb w cap line s).busyNext = s.busyNext)
    (ok : ∀ t, onOK (asSendnb w cap line.tail t) = asSendnb w cap line.tail (onOK t))
    (late : ∀ t, onTimeout (asSendnb w cap line.tail t) = asSendnb w cap line.tail (onTimeout t)) :
    pollStep target n onOK onTimeout (asSendnb w cap line s) = asSendnb w cap line.tail (pollStep target n onOK onTimeout s) := by
  rw [pollStep_eq, pollStep_eq, level, sampleBusy_asSendnb level, missedSample_asSendnb level, ok, late,
    apply_ite (asSendnb w cap line.tail), apply_ite (asSendnb w cap line.tail)]
  rfl

/-- R192: equal levels keep the two in step as long as the send phase goes on. -/
theorem fsmStep_asSendnb (here : s.st.sending = true) (goesOn : (fsmStep s).st.sending = true)
    (level : s.st.waiting = true → (asSendnb w cap line s).busyNext = s.busyNext) :
    fsmStep (asSendnb w cap line s) = asSendnb w cap (if s.st.waiting then line.tail else line) (fsmStep s) := by
  have st : (asSendnb w cap line s).st = s.st := rfl
  cases here' : s.st with
  | sWaitIdle =>
    rw [fsmStep_sWaitIdle here', fsmStep_sWaitIdle (st.trans here')]
    exact pollStep_asSendnb (level (by rw [here']; rfl)) (fun _ => rfl) fun _ => rfl
  | sWaitAccept =>
    rw [fsmStep_sWaitAccept here', fsmStep_sWaitAccept (st.trans here')]
    exact pollStep_asSendnb (level (by rw [here']; rfl)) (fun _ => rfl) fun _ => rfl
  | sXfer =>
    rw [fsmStep_sXfer here', fsmStep_sXfer (st.trans here'), stepSXfer, stepSXfer, apply_ite (asSendnb w cap _), apply_ite (asSendnb w cap _)]
    rfl
  | sWaitDone =>
    have wait : s.st.waiting = true := by rw [here']; rfl
    have m := fsmStep_move s
    generalize next : fsmStep s = t at m goesOn ⊢
    cases m with
    | missed _ wrong more =>
      have bound : (asSendnb w cap line s).waitBound = s.waitBound := by simp [State.waitBound, asSendnb, here']
      have wrong' : (asSendnb w cap line s).busyNext ≠ s.st.awaits := by rwa [level wait]
      rw [fsmStep_missed (s := asSendnb w cap line s) wait wrong' (bound ▸ more)]
      exact missedSample_asSendnb (level wait)
    | rest still => simp [here'] at still
    | timeout | busError | sent | turned | badLength | received | rejected | parsed | waited | gaveUp | tickedLast | sampled =>
      simp [FsmState.sending] at goesOn
    | selected other | accepted other | shifted other | shiftedLast other | ready other | oneByte other => simp [here'] at other
    | moreBytes other | stored other | storedLast other | ticked other => simp [here'] at other
  | idle | rWaitReady | rXferLen | rXfer | rWaitDone | wWaitHigh | dly | smp | fault => simp [here', FsmState.sending] at here

/-- R181, R190: where the send phase of XACT turns to the receive phase, SENDNB ends. -/
theorem fsmStep_turn (here : s.st.sending = true) (turns : (fsmStep s).st = .rWaitReady) (noXact : fieldOp w ≠ 0x8#4)
    (level : s.st.waiting = true → (asSendnb w cap line s).busyNext = s.busyNext) :
    s.st.waiting = true ∧ fsmStep s = openReceive (csRelease (sampleBusy s)) ∧
      fsmStep (asSendnb w cap line s) = finish .ok (csRelease (asSendnb w cap line.tail (sampleBusy s))) := by
  have m := fsmStep_move s
  generalize fsmStep s = t at m turns ⊢
  cases m with
  | turned here' high reply =>
    have wait : s.st.waiting = true := by rw [here']; rfl
    have level := level wait
    refine ⟨wait, rfl, ?_⟩
    have noReply : ¬ (decide (fieldOp w = 0x8#4) && !fieldNa w) = true := by simp [noXact]
    rw [fsmStep_sWaitDone (s := asSendnb w cap line s) here', stepSWaitDone, pollStep_eq, if_pos (level.trans high),
      sampleBusy_asSendnb level]
    exact if_neg noReply
  | rest still => rcases still with still | still <;> simp [still] at turns
  | missed => simp only [missedSample_fields] at turns; simp [turns, FsmState.sending] at here
  | stored here' | ticked here' => simp [here', FsmState.sending] at here
  | shifted here' => simp [here'] at turns
  | _ => simp at turns

end

/-- R23: a step takes a level from the list in the states that sample, and none in the others. -/
theorem fsmStep_busyIn (s : State) :
    (fsmStep s).busyIn = if s.st.waiting || decide (s.st = .smp) then s.busyIn.tail else s.busyIn := by
  have m := fsmStep_move s
  generalize fsmStep s = t at m ⊢
  cases m with
  | rest still => rcases still with here | here <;> simp [here, FsmState.waiting]
  | missed wait | timeout wait => simp [wait]
  | busError _ here => rcases here with ⟨here, _⟩ | ⟨here, _⟩ | ⟨here, _⟩ <;> simp [here, FsmState.waiting]
  | selected here | accepted here | sent here | turned here | ready here => simp [here, FsmState.waiting]
  | received here | rejected here | parsed here | waited here | gaveUp here => simp [here, FsmState.waiting]
  | shifted here | shiftedLast here | badLength here | oneByte here | moreBytes here => simp [here, FsmState.waiting]
  | stored here | storedLast here | ticked here | tickedLast here | sampled here => simp [here, FsmState.waiting]

/-- R23: the levels left are the last of those before. -/
theorem fsmRun_busyIn_suffix (n : Nat) (s : State) : (fsmRun n s).busyIn <:+ s.busyIn := by
  induction n with
  | zero => exact List.suffix_rfl
  | succ n ih =>
    rw [fsmRun_succ, fsmStep_busyIn]
    split_ifs
    · exact (List.tail_suffix _).trans ih
    · exact ih

/-- R192: a sample before `post` sees the same level with the levels of the polls put in before `post`. -/
theorem sample_before_polls {p polls post : List Bool} (left : post <:+ (p ++ post).tail) (enough : polls = [] ∨ post ≠ []) :
    ∃ q, (p ++ post).tail = q ++ post ∧ (p ++ polls ++ post).tail = q ++ polls ++ post ∧
      ∀ d, (p ++ polls ++ post).headD d = (p ++ post).headD d := by
  cases p with
  | cons x p => exact ⟨p, rfl, rfl, fun _ => rfl⟩
  | nil =>
    have none : post = [] := by
      have := left.length_le
      rw [List.nil_append, List.length_tail] at this
      exact List.eq_nil_of_length_eq_zero (by omega)
    obtain rfl := enough.resolve_right (not_not_intro none)
    exact ⟨[], by simp [none]⟩

/-- R192: the two stay in step up to the turn. -/
theorem fsmRun_asSendnb {w : Word} {cap m : Nat} {s : State} {pre polls post : List Bool}
    (sending : ∀ j, j ≤ m → (fsmRun j s).st.sending = true) (line : s.busyIn = pre ++ post) (left : post <:+ (fsmRun m s).busyIn)
    (enough : polls = [] ∨ post ≠ []) {j : Nat} (hj : j ≤ m) :
    ∃ p, (fsmRun j s).busyIn = p ++ post ∧
      fsmRun j (asSendnb w cap (pre ++ polls ++ post) s) = asSendnb w cap (p ++ polls ++ post) (fsmRun j s) := by
  induction j with
  | zero => exact ⟨pre, line, rfl⟩
  | succ j ih =>
    obtain ⟨p, lineJ, run⟩ := ih (by omega)
    have here := sending j (by omega)
    have goesOn := sending (j + 1) hj
    have leftJ : post <:+ (fsmRun (j + 1) s).busyIn := by
      obtain ⟨k, rfl⟩ := Nat.exists_eq_add_of_le hj
      rw [fsmRun_add] at left
      exact left.trans (fsmRun_busyIn_suffix k _)
    have noSample : (fsmRun j s).st ≠ .smp := fun smp => by simp [smp, FsmState.sending] at here
    rw [fsmRun_succ] at goesOn leftJ ⊢
    rw [fsmRun_succ, run]
    by_cases wait : (fsmRun j s).st.waiting = true
    · rw [fsmStep_busyIn, wait, Bool.true_or, if_pos rfl, lineJ] at leftJ ⊢
      obtain ⟨q, tail, tail', level⟩ := sample_before_polls leftJ enough
      have level' : (asSendnb w cap (p ++ polls ++ post) (fsmRun j s)).busyNext = (fsmRun j s).busyNext := by
        rw [State.busyNext, State.busyNext, lineJ]
        exact level _
      refine ⟨q, tail, ?_⟩
      rw [fsmStep_asSendnb here goesOn fun _ => level', if_pos wait, tail']
    · refine ⟨p, ?_, ?_⟩
      · rw [fsmStep_busyIn]; simpa [wait, noSample] using lineJ
      · rw [fsmStep_asSendnb here goesOn fun w => absurd w wait, if_neg wait]

/-! ### The polls -/

/-- What ISRDY keeps of the block (42_command_engine.md R192). -/
structure Polled (s t : State) : Prop where
  params : t.params = s.params
  mem : t.mem = s.mem
  drvstate : t.drvstate = s.drvstate
  ackinfo : t.ackinfo = s.ackinfo
  xchgIn : t.xchgIn = s.xchgIn
  deselects : t.deselects = s.deselects

theorem Polled.trans {s t u : State} (h : Polled s t) (k : Polled t u) : Polled s u :=
  ⟨k.params.trans h.params, k.mem.trans h.mem, k.drvstate.trans h.drvstate, k.ackinfo.trans h.ackinfo, k.xchgIn.trans h.xchgIn,
    k.deselects.trans h.deselects⟩

/-- R170: one ISRDY reports the next level and keeps the block. -/
theorem poll_once {v : Word} (legal : decode v = .ok .isrdy) (s : State) :
    Polled s (afterLaunch v 1 s) ∧ (afterLaunch v 1 s).rdy = !s.busyNext ∧ (afterLaunch v 1 s).st = .idle ∧
      (afterLaunch v 1 s).busyIn = s.busyIn.tail := by
  rw [afterLaunch_isrdy s legal]
  exact ⟨⟨rfl, rfl, rfl, rfl, rfl, by simp [State.deselects]⟩, rfl, rfl, rfl⟩

/-- R170: ISRDY polls of a high line. -/
theorem poll_high {v : Word} (legal : decode v = .ok .isrdy) {s : State} {j : Nat} {rest : List Bool}
    (line : s.busyIn = List.replicate j true ++ rest) :
    Polled s ((afterLaunch v 1)^[j] s) ∧ (1 ≤ j → ((afterLaunch v 1)^[j] s).rdy = false) ∧ ((afterLaunch v 1)^[j] s).busyIn = rest := by
  induction j generalizing rest with
  | zero => exact ⟨⟨rfl, rfl, rfl, rfl, rfl, rfl⟩, fun h => absurd h (by decide), line⟩
  | succ j ih =>
    obtain ⟨kept, _, left⟩ := ih (rest := true :: rest) (by rw [line, List.replicate_succ', List.append_assoc]; rfl)
    rw [Function.iterate_succ_apply']
    obtain ⟨once, rdy, _, line'⟩ := poll_once legal ((afterLaunch v 1)^[j] s)
    rw [State.busyNext, left] at rdy
    rw [left] at line'
    exact ⟨kept.trans once, fun _ => rdy, line'⟩

/-! ### The split transaction -/

/-- R94: an XACT whose launch part leaves the block BUSY has passed its checks. -/
theorem xact_legal_of_busy {s t : State} {cmd : Byte} {n : Nat} {tc : TimeoutClass} {apl : Nat}
    (launches : exec (.xact cmd n tc false apl) s = .next t) (busy : t.busy = true) :
    cmdLegal s.params cmd = true ∧ n ≤ 12 ∧ apl ≤ 23 := by
  have raised : ∀ c, t ≠ raiseFatal c s := by rintro c rfl; simp [State.busy, FsmState.busy] at busy
  change execXact cmd n tc false apl s = _ at launches
  unfold execXact at launches
  split_ifs at launches with badCmd badLen badApl never
  · exact absurd (Host.Outcome.next.inj launches).symm (raised _)
  · exact absurd (Host.Outcome.next.inj launches).symm (raised _)
  · exact absurd (Host.Outcome.next.inj launches).symm (raised _)
  · exact never.elim
  · exact ⟨by simpa using badCmd, Nat.not_lt.mp badLen, Nat.not_lt.mp fun long => badApl ⟨rfl, long⟩⟩

theorem FsmMove.cap {s t : State} (m : FsmMove s t) : t.cap = s.cap := by
  cases m <;> simp

/-- R34: as long as the block is BUSY the FSM keeps the flags of the launch, the latched word and the capacity. -/
theorem fsmRun_kept {s : State} {m : Nat} (busy : ∀ j, j ≤ m → (fsmRun j s).st.busy = true) :
    (fsmRun m s).params = s.params ∧ (fsmRun m s).op = s.op ∧ (fsmRun m s).cap = s.cap ∧ (fsmRun m s).done = s.done ∧
      (fsmRun m s).result = s.result := by
  induction m with
  | zero => exact ⟨rfl, rfl, rfl, rfl, rfl⟩
  | succ m ih =>
    obtain ⟨params, op, cap, done, result⟩ := ih fun j hj => busy j (by omega)
    have now := busy (m + 1) le_rfl
    rw [fsmRun_succ] at now ⊢
    obtain ⟨params', _, op', _⟩ := fsmStep_fixed (fsmRun m s)
    have move := fsmStep_move (fsmRun m s)
    rcases move.ends (busy m (by omega)) with ⟨_, done', result', _⟩ | ⟨idle, _⟩
    · exact ⟨params'.trans params, op'.trans op, move.cap.trans cap, done'.trans done, result'.trans result⟩
    · simp [idle, FsmState.busy] at now

theorem fsmRun_inBounds {s : State} (h : s.InBounds) (n : Nat) : (fsmRun n s).InBounds := by
  induction n with
  | zero => exact h
  | succ n ih => rw [fsmRun_succ]; exact (fsmStep_move _).inBounds ih

theorem busy_of_sending {st : FsmState} (h : st.sending = true) : st.busy = true := by
  cases st <;> simp_all [FsmState.sending, FsmState.busy]

/-- R192: the send phase of XACT turns from a state `b` in which SENDNB ends, with the levels of the polls put in before those left. -/
theorem sendnb_ends_at_turn {s : State} {w : Word} {cap m : Nat} {pre polls post : List Bool}
    (start : s.st.sending = true) (noXact : fieldOp w ≠ 0x8#4)
    (sending : ∀ j, j < m → (fsmRun j s).st.sending = true) (turns : (fsmRun m s).st = .rWaitReady)
    (line : s.busyIn = pre ++ post) (left : (fsmRun m s).busyIn = post) (enough : polls = [] ∨ post ≠ []) :
    ∃ b, b.params = s.params ∧ b.op = s.op ∧ b.cap = s.cap ∧ b.done = s.done ∧ b.result = s.result ∧ b.busyIn.tail = post ∧
      fsmRun m s = openReceive (csRelease (sampleBusy b)) ∧
      fsmRun m (asSendnb w cap (pre ++ polls ++ post) s) = finish .ok (csRelease (asSendnb w cap (polls ++ post) (sampleBusy b))) := by
  cases m with
  | zero => rw [fsmRun] at turns; simp [turns, FsmState.sending] at start
  | succ m =>
    have here := sending m (Nat.lt_succ_self m)
    obtain ⟨params, op, cap', done, result⟩ := fsmRun_kept fun j hj => busy_of_sending (sending j (Nat.lt_succ_iff.mpr hj))
    rw [fsmRun_succ] at left turns
    have shrinks : post <:+ (fsmRun m s).busyIn := left ▸ fsmRun_busyIn_suffix 1 (fsmRun m s)
    obtain ⟨p, lineM, run⟩ := fsmRun_asSendnb (w := w) (cap := cap) (fun j hj => sending j (Nat.lt_succ_iff.mpr hj)) line shrinks enough
      le_rfl
    have level : (fsmRun m s).st.waiting = true →
        ∃ q, (p ++ post).tail = q ++ post ∧ (p ++ polls ++ post).tail = q ++ polls ++ post ∧
          ∀ d, (p ++ polls ++ post).headD d = (p ++ post).headD d := fun wait => by
      refine sample_before_polls ?_ enough
      rw [fsmStep_busyIn, wait, Bool.true_or, if_pos rfl, lineM] at left
      rw [left]
    obtain ⟨wait, turned, ended⟩ := fsmStep_turn (w := w) (cap := cap) (line := p ++ polls ++ post) here turns noXact fun wait => by
      rw [State.busyNext, State.busyNext, lineM]
      obtain ⟨_, _, _, same⟩ := level wait
      exact same _
    obtain ⟨q, tail, tail', _⟩ := level wait
    rw [fsmStep_busyIn, wait, Bool.true_or, if_pos rfl] at left
    have none : q = [] := by
      rw [lineM, tail] at left
      exact List.append_left_eq_self.mp left
    refine ⟨fsmRun m s, params, op, cap', done, result, left, ?_, ?_⟩
    · rw [fsmRun_succ, turned]
    · rw [fsmRun_succ, run, ended, tail', none]
      rfl

/-- R188: the launch part of SENDNB gives the state of XACT's launch part as SENDNB has it. -/
theorem sendnb_launch (cmd : Byte) (n cap : Nat) (vx vs : Word) (line : List Bool) (s : State) :
    openSend (n + 2) (packFrame cmd n (latchWord vs { s with busyIn := line })) =
      asSendnb vs s.cap line (openSend (n + 2) { packFrame cmd n (latchWord vx s) with cap := cap }) := rfl

/-- R147: the dummy fill. -/
theorem openReceive_mem (s : State) : (openReceive s).mem = Memory.storeBytes s.mem .txf 0 (fun _ => Config.dummyByte) s.cap := rfl

/-- What READACK finds of the state `b` from which XACT turns (42_command_engine.md R192). -/
structure TakesOver (b e : State) : Prop where
  params : e.params = b.params
  mem : e.mem = b.mem
  drvstate : e.drvstate = b.drvstate
  ackinfo : e.ackinfo = b.ackinfo
  busyIn : e.busyIn = b.busyIn.tail
  xchgIn : e.xchgIn = b.xchgIn

/-- R192: READACK 26, launched on the buffers and the inputs that XACT's send phase has left, starts in step with XACT's receive phase. -/
theorem readack_tracks {b e : State} {vr : Word} {tc : TimeoutClass} (xact : b.opCode = 0x8#4) (tcX : b.opTc = tc)
    (readack : fieldOp vr = 0xA#4) (tcR : tcOfField (fieldTc vr) = tc) (cap : b.cap = 26) (done : b.done = false) (result : b.result = .ok)
    (found : TakesOver b e) (bounds : (openReceive (csRelease (sampleBusy b))).InBounds)
    (inputs : e.draws = b.draws + 1 ∨
      (pollBound b.params tc + pollBound b.params .notx ≤ b.busyIn.tail.length ∧ 26 ≤ b.xchgIn.length)) :
    Tracks (b.deselects + 1) e.deselects (openReceive (csRelease (sampleBusy b))) (openReceive { latchWord vr e with cap := 26 }) where
  bounds := bounds
  phase := .inl rfl
  inputs := by
    refine inputs.imp id fun ⟨samples, xchgs⟩ => ?_
    subst tcX
    simpa [State.Supplied, State.samplesLeft, State.xchgsLeft, State.opTc, State.nNotx] using And.intro samples xchgs
  inStep := by
    have filled : (openReceive { latchWord vr e with cap := 26 }).mem = (openReceive (csRelease (sampleBusy b))).mem := by
      rw [openReceive_mem, openReceive_mem]
      simp [found.mem, cap]
    constructor
    case mem => exact filled
    case tc => simpa [State.opTc] using tcR.trans tcX.symm
    case parses => simpa [State.parsesAck, State.opCode] using Or.inl xact
    case parses' => simpa [State.parsesAck, State.opCode] using Or.inr readack
    case deselects => simp [State.deselects]; omega
    all_goals simp [found.params, found.drvstate, found.ackinfo, found.busyIn, found.xchgIn, done, result, cap]

/-- Settles O40: SENDNB keeps step with XACT up to the turn, the polls keep the block, and READACK keeps step from the turn on. -/
theorem splitTransactionAgreesWithXact : Obligations.SplitTransactionAgreesWithXact := by
  unfold Obligations.SplitTransactionAgreesWithXact
  intro s a c vx vs vi vr cmd n tc apl m pre polls post full legalX legalS legalI legalR launchX busy sending turns line left enough launchS
  obtain ⟨_, opX, _, _, tcX, _⟩ := decode_eq_ok legalX
  obtain ⟨_, opS, _⟩ := decode_eq_ok legalS
  obtain ⟨_, opR, _, tcR⟩ := decode_eq_ok legalR
  obtain ⟨legal, short, fits⟩ := xact_legal_of_busy launchX busy
  have boundsA : a.InBounds := (launched_of_exec launchX).inBounds (decode_eq_ok legalX).2
  obtain ⟨st, paramsA, opA, capA, doneA, resultA, busyA, rfl⟩ : a.st = .sWaitIdle ∧ a.params = s.params ∧ a.op = vx ∧ a.cap = 26 ∧
      a.done = false ∧ a.result = .ok ∧ a.busyIn = s.busyIn ∧ c = asSendnb vs s.cap (pre ++ polls ++ post) a := by
    have a_eq := Host.Outcome.next.inj ((exec_xactAck_of_legal tc legal short fits).symm.trans launchX)
    have opened := exec_sendnb_of_legal (s := latchWord vs { s with busyIn := pre ++ polls ++ post }) legal short
    have c_eq := Host.Outcome.next.inj (opened.symm.trans launchS)
    rw [sendnb_launch cmd n _ vx, a_eq] at c_eq
    rw [← c_eq, ← a_eq]
    simp [full, xactCap, Config.ackFrameMax]
  obtain ⟨b, params, op, cap, done, result, tail, endX, endS⟩ := sendnb_ends_at_turn (w := vs) (cap := s.cap) (by rw [st]; rfl)
    (by rw [opS]; decide) sending turns (busyA.trans line) left enough
  have paramsB : b.params = s.params := params.trans paramsA
  have boundsM := fsmRun_inBounds boundsA m
  rw [endX] at boundsM
  simp only [fsmRun_add, endX, endS]
  refine ⟨⟨rfl, rfl, rfl, rfl, rfl⟩, fun p hp => ?polls, fun e f paramsE mem drvstate ackinfo busyE xchgIn inputs launchR j => ?readack⟩
  case polls =>
    generalize ended : finish .ok (csRelease (asSendnb vs s.cap (polls ++ post) (sampleBusy b))) = t
    obtain ⟨lineT, paramsT, xchgT⟩ : t.busyIn = List.replicate p true ++ false :: post ∧ t.params = s.params ∧ t.xchgIn = b.xchgIn := by
      subst ended
      simp [asSendnb, hp, paramsB]
    obtain ⟨kept, _, left'⟩ := poll_high legalI lineT
    obtain ⟨once, rdy, idle, line'⟩ := poll_once legalI ((afterLaunch vi 1)^[p] t)
    have all := kept.trans once
    rw [State.busyNext, left'] at rdy
    rw [left'] at line'
    refine ⟨fun j pos hj => ?_, _, Function.iterate_succ_apply' .., rdy, idle, all.params.trans paramsT, all.mem, all.drvstate, all.ackinfo,
      line', all.xchgIn.trans xchgT, all.deselects⟩
    have lineJ : t.busyIn = List.replicate j true ++ (List.replicate (p - j) true ++ false :: post) := by
      rw [lineT, ← List.append_assoc, List.replicate_append_replicate, Nat.add_sub_of_le hj]
    exact (poll_high legalI lineJ).2.1 pos
  case readack =>
    have f_eq := Host.Outcome.next.inj ((exec_readack_of_legal tc (latchWord vr e) (by decide) (by decide)).symm.trans launchR)
    have start : Tracks (b.deselects + 1) e.deselects (openReceive (csRelease (sampleBusy b))) f := by
      rw [← f_eq]
      have found : TakesOver b e := ⟨paramsE.trans paramsB.symm, mem, drvstate, ackinfo, busyE.trans tail.symm, xchgIn⟩
      rw [← paramsB, ← tail] at inputs
      refine readack_tracks (tc := tc) ?_ ?_ opR tcR.symm (cap.trans capA) (done.trans doneA) (result.trans resultA) found boundsM inputs
      · rw [State.opCode, op, opA, opX]
      · rw [State.opTc, op, opA, tcX]
    obtain ⟨h, _⟩ := start.fsmRun j
    refine ⟨h.st, h.mem, h.drvstate, h.ackinfo, h.done, h.result, ?_⟩
    have turned : (openReceive (csRelease (sampleBusy b))).deselects = b.deselects + 1 := by simp [State.deselects]
    rw [turned]
    exact h.deselects

end Sys2Proof.Machine
